-- ==== Sys2Proof/Word.lean ====
section
/-! DEFINITION. The word types of the block and the type of a backing store.
Widths: 00_scope R7 (16-bit addresses, 8-bit data), 30_encoding R80 (32-bit transaction word). -/

namespace Sys2Proof

/-- A data byte (R7, R63: every transfer moves exactly one byte). -/
abbrev Byte := BitVec 8

/-- A CPU or PPU address, a tick count or a PRG-RAM offset: the 16-bit operand `a16` (R7, R84). -/
abbrev Addr := BitVec 16

/-- A transaction word (R80). -/
abbrev Word := BitVec 32

/-- A backing store as plain data: the (offset, byte) pairs that differ from what an unlisted offset
reads as, offsets strictly rising (log entry 3). Its operations are in Machine/Ops.lean. -/
abbrev Memory := List Host.Cell

end Sys2Proof
end

