-- ==== Sys2Proof/Config.lean ====
section
/-! DEFINITION. What is fixed for one cartridge: the configuration record of 00_scope R6, the types a variant
profile is made of (41_bank_decoder R120, 43_irq_engine R170, 44_serial_loader R200, 46_variant_profiles R240),
and what the cartridge loader supplies (40_interface_registry R100 to R106).
The block has no free value that a transaction could draw: the spec's draws (INIT_PRG_RAM, INIT_CHR_RAM,
AllocationFailure) are arguments of construction (`Draws`), its parameters are arguments too (`RawProfile`, the
registry, `Environment`). -/

namespace Sys2Proof

/-- The five mirroring modes, in the order that numbers their codes (R150, R85). -/
inductive Mirroring where
  | horizontal | vertical | oneScreenLow | oneScreenHigh | fourScreen
  deriving DecidableEq, Repr

/-- The two stores a bank decode reaches; the recorded value of `SizeMismatch` and `InvalidSize` (R281, R282). -/
inductive Store where
  | prg | chr
  deriving DecidableEq, Repr

/-- The placement policy of a window (R120). `variable r shr` names register `r` of the bank register file the
window's space uses (`prg_bank` for a PRG window, `chr_bank` for a CHR window) and a right shift. The index and
shift ranges of R105 W3 are the types'. -/
inductive Policy (n : Nat) where
  | fixedFirst
  | fixedLast
  | variable (r : Fin n) (shr : Fin 8)
  deriving DecidableEq, Repr

/-- A bank window: the addresses `base .. base + size - 1` (R120). -/
structure Window (n : Nat) where
  base   : Nat
  size   : Nat
  policy : Policy n
  deriving DecidableEq, Repr

/-- `IRQ_FAMILY` (R6, R170). -/
inductive IrqFamily where
  | none | edge | counter
  deriving DecidableEq, Repr

/-- `COUNTER_DIR` (R6, R176, R177). -/
inductive CounterDir where
  | up | down
  deriving DecidableEq, Repr

/-- `WRAP_WHEN_DISABLED` (R6, R176, R177). -/
inductive WrapPolicy where
  | modular | reload
  deriving DecidableEq, Repr

/-- `MIRROR_SOURCE` (R6, R151). -/
inductive MirrorSource where
  | register | header
  deriving DecidableEq, Repr

/-- The register actions of R240, over the type of their operand: bytes once decoded (`Action Byte`), fields of
the write while still in a profile's table (`Action Operand`). -/
inductive Action (α : Type) where
  | prgBank (i : Fin 4) (v : α)
  | chrBank (j : Fin 8) (v : α)
  | sel (v : α)
  | prgMode (m : α)
  | chrMode (b : α)
  | mirrorField (f : α)
  | ramEnable (b : α)
  | ramProtect (b : α)
  | irqLatch (v : α)
  | irqCounterLoad
  | irqReload
  | irqEnable (b : α)
  | countMode (b : α)
  | irqAck
  deriving DecidableEq, Repr

/-- Where a profile's table takes an action's operand from: a literal, the field of `len` bits at `lo` of the data
byte or of the address, or `1 - v[k]` (R247 writes `RamEnable(1 - value[4])`). -/
inductive Operand where
  | lit (b : Byte)
  | data (lo len : Nat)
  | notData (k : Nat)
  | addr (lo len : Nat)
  deriving DecidableEq, Repr

/-- One row of a profile's `WRITE_DECODE`, or of what a serial target's commit writes, as plain data: a match of the
address, the data byte (the committed value) and `sel` under masks (R89, R203, R241, R250), and the actions it stands
for. The first matching row decides; no row means no action. -/
structure WriteRow where
  aMask    : Addr := 0
  aMatch   : Addr := 0
  vMask    : Byte := 0
  vMatch   : Byte := 0
  selMask  : BitVec 3 := 0
  selMatch : BitVec 3 := 0
  acts     : List (Action Operand)
  deriving DecidableEq, Repr

/-- The four target registers of a serial profile (R200). Profile S: CONTROL, CHR0, CHR1, PRG. -/
inductive Target where
  | t0 | t1 | t2 | t3
  deriving DecidableEq, Repr

/-- `SERIAL_TARGET`: a function from the address to a target, as a decision tree over address bits, so that every
address has a target (R200, R105 W6) and every such function can be written. -/
inductive TargetMap where
  | target (t : Target)
  | split (bit : Fin 16) (zero one : TargetMap)
  deriving DecidableEq, Repr

/-- What a commit of each target writes (R203), as rows whose data byte is the committed 5-bit value: every function of
the value is some list of rows (log entry 9). -/
structure Commits where
  t0 : List WriteRow := []
  t1 : List WriteRow := []
  t2 : List WriteRow := []
  t3 : List WriteRow := []
  deriving DecidableEq, Repr

/-- The reset value of `mirror_field`: `enc(HEADER_MIRROR)` in the reference profiles, or a value (R301). -/
inductive MirrorReset where
  | encHeader
  | value (f : BitVec 2)
  deriving DecidableEq, Repr

/-- `RESET_VALUES` (R6, R301). -/
structure ResetValues where
  prgBank     : Vector Byte 4 := Vector.replicate 4 0
  chrBank     : Vector Byte 8 := Vector.replicate 8 0
  prgMode     : BitVec 2 := 0
  chrMode     : Bool := false
  mirrorField : MirrorReset := .encHeader
  ramEnable   : Bool := true
  ramProtect  : Bool := false
  deriving DecidableEq, Repr

/-- The profile fields of the configuration record (R6). W3 to W7 of R105 hold by the types; W1 and W2 are
`ProfileData.tiled` (WellFormed.lean). -/
structure ProfileData where
  prgLayout        : Vector (List (Window 4)) 4
  chrLayout        : Vector (List (Window 8)) 2
  mirrorSource     : MirrorSource
  mirrorDecode     : Vector Mirroring 4
  serial           : Bool
  serialTarget     : TargetMap := .target .t0
  commits          : Commits := {}
  fixedBankMode    : BitVec 2 := 0
  writeRows        : List WriteRow := []
  irqFamily        : IrqFamily
  edgeBit          : Fin 13 := 12
  counterDir       : CounterDir := .up
  wrapWhenDisabled : WrapPolicy := .modular
  resetValues      : ResetValues := {}
  deriving DecidableEq, Repr

/-- The variant profile of an instance: one of the three reference profiles, whose second-level rows stand in the
opcode table, or any other variant, given as data (R4, R90; 92_eei_decisions D26 to D28). -/
inductive Profile where
  | S | E | C
  | other (d : ProfileData)
  deriving DecidableEq, Repr

/-! ## What the loader supplies -/

/-- The bank register a variant author's policy names, in either file and with any index (checked by R105 W3). -/
inductive BankReg where
  | prg (i : Nat)
  | chr (j : Nat)
  deriving DecidableEq, Repr

/-- A variant author's placement policy, unchecked. -/
inductive RawPolicy where
  | fixedFirst
  | fixedLast
  | variable (r : BankReg) (shr : Nat)
  deriving DecidableEq, Repr

/-- A variant author's window, unchecked. -/
structure RawWindow where
  base   : Nat
  size   : Nat
  policy : RawPolicy
  deriving DecidableEq, Repr

/-- A variant author's `SERIAL_TARGET`, which may leave an address without a target (checked by R105 W6). -/
inductive RawTargetMap where
  | undefined
  | target (t : Target)
  | split (bit : Fin 16) (zero one : RawTargetMap)
  deriving DecidableEq, Repr

/-- A profile as its author writes it, before the checks of R105. -/
structure RawProfile where
  prgLayout        : List (List RawWindow)
  chrLayout        : List (List RawWindow)
  mirrorSource     : MirrorSource
  mirrorDecode     : List Mirroring
  serial           : Bool
  serialTarget     : RawTargetMap := .undefined
  commits          : Commits := {}
  fixedBankMode    : Nat := 0
  writeRows        : List WriteRow := []
  irqFamily        : IrqFamily
  edgeBit          : Nat := 12
  counterDir       : CounterDir := .up
  wrapWhenDisabled : WrapPolicy := .modular
  resetValues      : ResetValues := {}
  deriving DecidableEq, Repr

/-- What the registry holds for a mapper number: a reference profile, or a variant still to be checked (R101). -/
inductive RegistryEntry where
  | S | E | C
  | variant (r : RawProfile)
  deriving DecidableEq, Repr

/-- A byte array of `size` bytes as the loader hands it over: the listed cells, every other byte 0x00. -/
structure Image where
  size  : Nat
  cells : List Host.Cell
  deriving DecidableEq, Repr

/-- `CHR_DECLARED` (R6, R103). -/
inductive ChrDeclared where
  | rom (bytes : Image)
  | ram (n : Nat)
  | none
  deriving DecidableEq, Repr

/-- The cartridge fields of the configuration record (R6). -/
structure Cartridge where
  mapperNumber : Nat
  prgRom       : Image
  chr          : ChrDeclared
  ramSize      : Nat
  hasBattery   : Bool
  headerMirror : Mirroring
  deriving DecidableEq, Repr

/-- The draws of construction: RAM contents and whether allocation fails (R104, R106; 93 I1, I2). -/
structure Draws where
  initPrgRam       : List Host.Cell
  initChrRam       : List Host.Cell
  allocationFails  : Bool
  deriving DecidableEq, Repr

/-- The two numbers among the environment fields of R6, arguments of construction like the registry and the draws, with
the spec's values as their defaults (D5, D22; 93 I9). `cpuWindowLo` is `CPU_WINDOW_LO`, the lowest CPU address the block
answers; `chrRamDefaultSize` is `CHR_RAM_DEFAULT_SIZE` (R103). What other values do: log entry 10. -/
structure Environment where
  cpuWindowLo       : Addr := 0x6000
  chrRamDefaultSize : Nat := 8192
  deriving DecidableEq, Repr

/-- The configuration of a constructed instance (R6), constant for its lifetime. `chrSize` and `chrIsRam` are the
derived `S_chr` and `CHR_IS_RAM` of R103. -/
structure Config where
  mapperNumber      : Nat
  profile           : Profile
  prgRom            : Memory
  prgSize           : Nat
  chrIsRam          : Bool
  chrSize           : Nat
  ramSize           : Nat
  hasBattery        : Bool
  headerMirror      : Mirroring
  cpuWindowLo       : Addr
  chrRamDefaultSize : Nat
  deriving DecidableEq, Repr

/-- The outcomes of the checks of R105, by the name the rule gives each. -/
inductive ProfileCheck where
  | w1 | w2 | w3 | w4 | w5 | w6 | w7
  deriving DecidableEq, Repr

/-- The load errors of R281 with their recorded values. All are fatal at load. -/
inductive LoadError where
  | unsupportedMapper (mapperNumber : Nat)
  | allocationFailure
  | invalidSize (store : Store)
  deriving DecidableEq, Repr

/-- The code R281 numbers a load error with. -/
def LoadError.code : LoadError → Nat
  | .unsupportedMapper _ => 1
  | .allocationFailure => 2
  | .invalidSize _ => 3

end Sys2Proof
end

