-- ==== Sys2Proof/Syntax.lean ====
section
/-! DEFINITION. The transactions of the block: one constructor per row of the opcode table.
The fourteen kinds of R81 carry the operands of their source call. A second-level row (R88 to R90) is a
`cpu_write(a, v)` read in one profile; it keeps the whole of `a` and `v`, so that no bit of its word is dropped. -/

namespace Sys2Proof

/-- A transaction (R81), or a `cpu_write` as a second-level row of profile S, E or C (R243 to R265). -/
inductive Instr where
  | cpuRead (a : Addr)
  | cpuWrite (a : Addr) (v : Byte)
  | ppuRead (a : Addr)
  | ppuWrite (a : Addr) (v : Byte)
  | reset
  | scanline
  | clock (n : Addr)
  | irqState
  | irqClear
  | getMirror
  | saveRead (o : Addr)
  | saveWrite (o : Addr) (v : Byte)
  | dirtyRead
  | dirtyClear
  | sReset (a : Addr) (v : Byte)
  | sShiftControl (a : Addr) (v : Byte)
  | sShiftChr0 (a : Addr) (v : Byte)
  | sShiftChr1 (a : Addr) (v : Byte)
  | sShiftPrg (a : Addr) (v : Byte)
  | eBankSelect (a : Addr) (v : Byte)
  | eBankData (a : Addr) (v : Byte)
  | eMirror (a : Addr) (v : Byte)
  | eRamProtect (a : Addr) (v : Byte)
  | eIrqLatch (a : Addr) (v : Byte)
  | eIrqReload (a : Addr) (v : Byte)
  | eIrqDisable (a : Addr) (v : Byte)
  | eIrqEnable (a : Addr) (v : Byte)
  | cPrg (a : Addr) (v : Byte)
  | cMirror (a : Addr) (v : Byte)
  | cChrLo (a : Addr) (v : Byte)
  | cChrHi (a : Addr) (v : Byte)
  | cIrqLatch (a : Addr) (v : Byte)
  | cIrqControl (a : Addr) (v : Byte)
  | cIrqAck (a : Addr) (v : Byte)
  | cIgnoredA (a : Addr) (v : Byte)
  | cIgnoredD (a : Addr) (v : Byte)
  | cIgnoredE (a : Addr) (v : Byte)
  | cIgnoredF3 (a : Addr) (v : Byte)
  deriving DecidableEq, Repr

end Sys2Proof
end

