-- ==== Sys2Proof/WellFormed.lean ====
section
/-! DEFINITION. The checks on syntax and on profiles.
`Instr.wf`: a second-level row's operands lie in the row's own pattern (R243 to R265).
`Instr.readIn`: the profile in which a word reads as this transaction (R90).
`tiles`, `ProfileData.tiled`: the window checks W1 and W2 of R105. -/

namespace Sys2Proof

/-- The operands fit the row: the address (and for profile S bit 7 of the data byte) matches the row's pattern.
Every operand value of a first-level transaction is legal (R84, R87). -/
def Instr.wf : Instr → Bool
  | .cpuRead _ | .cpuWrite _ _ | .ppuRead _ | .ppuWrite _ _ | .reset | .scanline | .clock _ | .irqState
  | .irqClear | .getMirror | .saveRead _ | .saveWrite _ _ | .dirtyRead | .dirtyClear => true
  | .sReset a v        => (a &&& 0x8000#16) == 0x8000#16 && (v &&& 0x80#8) == 0x80#8
  | .sShiftControl a v => (a &&& 0xE000#16) == 0x8000#16 && (v &&& 0x80#8) == 0#8
  | .sShiftChr0 a v    => (a &&& 0xE000#16) == 0xA000#16 && (v &&& 0x80#8) == 0#8
  | .sShiftChr1 a v    => (a &&& 0xE000#16) == 0xC000#16 && (v &&& 0x80#8) == 0#8
  | .sShiftPrg a v     => (a &&& 0xE000#16) == 0xE000#16 && (v &&& 0x80#8) == 0#8
  | .eBankSelect a _   => (a &&& 0xE001#16) == 0x8000#16
  | .eBankData a _     => (a &&& 0xE001#16) == 0x8001#16
  | .eMirror a _       => (a &&& 0xE001#16) == 0xA000#16
  | .eRamProtect a _   => (a &&& 0xE001#16) == 0xA001#16
  | .eIrqLatch a _     => (a &&& 0xE001#16) == 0xC000#16
  | .eIrqReload a _    => (a &&& 0xE001#16) == 0xC001#16
  | .eIrqDisable a _   => (a &&& 0xE001#16) == 0xE000#16
  | .eIrqEnable a _    => (a &&& 0xE001#16) == 0xE001#16
  | .cPrg a _          => (a &&& 0xF000#16) == 0x8000#16
  | .cMirror a _       => (a &&& 0xF000#16) == 0x9000#16
  | .cChrLo a _        => (a &&& 0xF000#16) == 0xB000#16
  | .cChrHi a _        => (a &&& 0xF000#16) == 0xC000#16
  | .cIrqLatch a _     => (a &&& 0xF003#16) == 0xF000#16
  | .cIrqControl a _   => (a &&& 0xF003#16) == 0xF001#16
  | .cIrqAck a _       => (a &&& 0xF003#16) == 0xF002#16
  | .cIgnoredA a _     => (a &&& 0xF000#16) == 0xA000#16
  | .cIgnoredD a _     => (a &&& 0xF000#16) == 0xD000#16
  | .cIgnoredE a _     => (a &&& 0xF000#16) == 0xE000#16
  | .cIgnoredF3 a _    => (a &&& 0xF003#16) == 0xF003#16

/-- The profile `p` reads some word as this transaction (R90): a second-level row only in its own profile, and
`CPU_WRITE` itself in a reference profile only below the register range, every register write being a row there. -/
def Instr.readIn (p : Profile) : Instr → Bool
  | .cpuRead _ | .ppuRead _ | .ppuWrite _ _ | .reset | .scanline | .clock _ | .irqState
  | .irqClear | .getMirror | .saveRead _ | .saveWrite _ _ | .dirtyRead | .dirtyClear => true
  | .cpuWrite a _ => match p with
    | .other _ => true
    | _ => a.toNat < 0x8000
  | .sReset _ _ | .sShiftControl _ _ | .sShiftChr0 _ _ | .sShiftChr1 _ _ | .sShiftPrg _ _ => p == .S
  | .eBankSelect _ _ | .eBankData _ _ | .eMirror _ _ | .eRamProtect _ _ | .eIrqLatch _ _ | .eIrqReload _ _
  | .eIrqDisable _ _ | .eIrqEnable _ _ => p == .E
  | .cPrg _ _ | .cMirror _ _ | .cChrLo _ _ | .cChrHi _ _ | .cIrqLatch _ _ | .cIrqControl _ _ | .cIrqAck _ _
  | .cIgnoredA _ _ | .cIgnoredD _ _ | .cIgnoredE _ _ | .cIgnoredF3 _ _ => p == .C

/-- The window `(base, size)` answers address `a` (R120). -/
def spanAnswers (w : Nat × Nat) (a : Nat) : Bool := w.1 ≤ a && a < w.1 + w.2

/-- R105 W1 and W2: sizes from `sizes`, bases multiples of the sizes, every window inside `lo .. lo + len - 1`, and
each block of `grain` bytes (the smallest size) answered by exactly one window, which is covering exactly once. -/
def tiles (sizes : List Nat) (lo len grain : Nat) (ws : List (Nat × Nat)) : Bool :=
  ws.all (fun w => sizes.contains w.2 && w.1 % w.2 == 0 && decide (lo ≤ w.1) && decide (w.1 + w.2 ≤ lo + len)) &&
  (List.range (len / grain)).all (fun k => (ws.filter (spanAnswers · (lo + k * grain))).length == 1)

/-- W1: the windows of one PRG layout (R8, R105). -/
def prgTiles (ws : List (Nat × Nat)) : Bool := tiles [32768, 16384, 8192] 0x8000 0x8000 8192 ws

/-- W2: the windows of one CHR layout (R8, R105). -/
def chrTiles (ws : List (Nat × Nat)) : Bool := tiles [8192, 4096, 2048, 1024] 0x0000 0x2000 1024 ws

/-- The base and size of a window. -/
def Window.span {n : Nat} (w : Window n) : Nat × Nat := (w.base, w.size)

/-- W1 and W2 of a profile's layouts (R105). -/
def ProfileData.tiled (d : ProfileData) : Bool :=
  d.prgLayout.toList.all (fun ws => prgTiles (ws.map Window.span)) &&
  d.chrLayout.toList.all (fun ws => chrTiles (ws.map Window.span))

end Sys2Proof
end

