-- ==== Sys2Proof/Decode.lean ====
section
/-! DEFINITION. The decoder and the encoder of the transaction word (30_encoding R80 to R91).
`decode` is total and refuses by name. Which second-level rows apply is the profile's (R91), so it takes the profile.
`decodeTableWord` answers for a word of the opcode table, whose second-level rows overlap between profiles: see log
entry 5. -/

namespace Sys2Proof

/-- Why a word is refused (R86). -/
inductive DecodeError where
  /-- `kind` is 0xE or 0xF (R86 a). -/
  | reservedKind
  /-- `rsv` is not zero (R83, R86 b). -/
  | reservedField
  /-- A field the kind does not use is not zero (R82, R86 c). -/
  | unusedField
  deriving DecidableEq, Repr

/-- `kind = word[31:28]` (R80). -/
def kindField (w : Word) : BitVec 4 := w.extractLsb' 28 4

/-- `rsv = word[27:24]` (R80). -/
def rsvField (w : Word) : BitVec 4 := w.extractLsb' 24 4

/-- `a16 = word[23:8]` (R80, R84). -/
def a16Field (w : Word) : Addr := w.extractLsb' 8 16

/-- `d8 = word[7:0]` (R80, R84). -/
def d8Field (w : Word) : Byte := w.extractLsb' 0 8

/-- The word with these fields and `rsv = 0` (R80). -/
def mkWord (kind : BitVec 4) (a : Addr) (d : Byte) : Word := kind ++ 0#4 ++ a ++ d

/-- A register write of Profile S: bit 7 tells a reset from a shift, address bits [14:13] the target (R88, R242). -/
def decodeWriteS (a : Addr) (v : Byte) : Instr :=
  if (a &&& 0x8000#16) = 0x8000#16 ∧ (v &&& 0x80#8) = 0x80#8 then .sReset a v
  else if (a &&& 0xE000#16) = 0x8000#16 then .sShiftControl a v
  else if (a &&& 0xE000#16) = 0xA000#16 then .sShiftChr0 a v
  else if (a &&& 0xE000#16) = 0xC000#16 then .sShiftChr1 a v
  else if (a &&& 0xE000#16) = 0xE000#16 then .sShiftPrg a v
  else .cpuWrite a v

/-- A register write of Profile E, by `a & 0xE001` (R248 to R256). -/
def decodeWriteE (a : Addr) (v : Byte) : Instr :=
  if (a &&& 0xE001#16) = 0x8000#16 then .eBankSelect a v
  else if (a &&& 0xE001#16) = 0x8001#16 then .eBankData a v
  else if (a &&& 0xE001#16) = 0xA000#16 then .eMirror a v
  else if (a &&& 0xE001#16) = 0xA001#16 then .eRamProtect a v
  else if (a &&& 0xE001#16) = 0xC000#16 then .eIrqLatch a v
  else if (a &&& 0xE001#16) = 0xC001#16 then .eIrqReload a v
  else if (a &&& 0xE001#16) = 0xE000#16 then .eIrqDisable a v
  else if (a &&& 0xE001#16) = 0xE001#16 then .eIrqEnable a v
  else .cpuWrite a v

/-- A register write of Profile C, by `a[15:12]`, and in 0xF000..0xFFFF by `a & 0xF003` (R257 to R265). -/
def decodeWriteC (a : Addr) (v : Byte) : Instr :=
  if (a &&& 0xF000#16) = 0x8000#16 then .cPrg a v
  else if (a &&& 0xF000#16) = 0x9000#16 then .cMirror a v
  else if (a &&& 0xF000#16) = 0xA000#16 then .cIgnoredA a v
  else if (a &&& 0xF000#16) = 0xB000#16 then .cChrLo a v
  else if (a &&& 0xF000#16) = 0xC000#16 then .cChrHi a v
  else if (a &&& 0xF000#16) = 0xD000#16 then .cIgnoredD a v
  else if (a &&& 0xF000#16) = 0xE000#16 then .cIgnoredE a v
  else if (a &&& 0xF003#16) = 0xF000#16 then .cIrqLatch a v
  else if (a &&& 0xF003#16) = 0xF001#16 then .cIrqControl a v
  else if (a &&& 0xF003#16) = 0xF002#16 then .cIrqAck a v
  else if (a &&& 0xF003#16) = 0xF003#16 then .cIgnoredF3 a v
  else .cpuWrite a v

/-- A `cpu_write` read in profile `p`: the profile's second-level row, or the first-level transaction (R89, R90). -/
def decodeWrite (p : Profile) (a : Addr) (v : Byte) : Instr :=
  match p with
  | .S => decodeWriteS a v
  | .E => decodeWriteE a v
  | .C => decodeWriteC a v
  | .other _ => .cpuWrite a v

/-- A transaction that uses `a16` only: `d8` must be zero (R82). -/
def usesA16 (a : Addr) (d : Byte) (i : Addr → Instr) : Except DecodeError Instr :=
  if d = 0#8 then .ok (i a) else .error .unusedField

/-- A transaction that uses neither field: both must be zero (R82). -/
def usesNone (a : Addr) (d : Byte) (i : Instr) : Except DecodeError Instr :=
  if a = 0#16 ∧ d = 0#8 then .ok i else .error .unusedField

/-- The kinds of R81; a reserved kind is refused (R86 a). -/
def decodeKind (p : Profile) (kind : Nat) (a : Addr) (d : Byte) : Except DecodeError Instr :=
  match kind with
  | 0x0 => usesA16 a d .cpuRead
  | 0x1 => .ok (decodeWrite p a d)
  | 0x2 => usesA16 a d .ppuRead
  | 0x3 => .ok (.ppuWrite a d)
  | 0x4 => usesNone a d .reset
  | 0x5 => usesNone a d .scanline
  | 0x6 => usesA16 a d .clock
  | 0x7 => usesNone a d .irqState
  | 0x8 => usesNone a d .irqClear
  | 0x9 => usesNone a d .getMirror
  | 0xA => usesA16 a d .saveRead
  | 0xB => .ok (.saveWrite a d)
  | 0xC => usesNone a d .dirtyRead
  | 0xD => usesNone a d .dirtyClear
  | _   => .error .reservedKind

/-- The decoder: the transaction a word is in profile `p`, or the reason it is refused (R80 to R91). Where a word
has several faults, the reason reported is the first of R86's list. -/
def decode (p : Profile) (w : Word) : Except DecodeError Instr :=
  if 0xE ≤ (kindField w).toNat then .error .reservedKind
  else if rsvField w ≠ 0#4 then .error .reservedField
  else decodeKind p (kindField w).toNat (a16Field w) (d8Field w)

/-- The word of a transaction (R80, R81; a second-level row is its `CPU_WRITE` word, R88 to R90). -/
def encode : Instr → Word
  | .cpuRead a     => mkWord 0x0#4 a 0#8
  | .cpuWrite a v  => mkWord 0x1#4 a v
  | .ppuRead a     => mkWord 0x2#4 a 0#8
  | .ppuWrite a v  => mkWord 0x3#4 a v
  | .reset         => mkWord 0x4#4 0#16 0#8
  | .scanline      => mkWord 0x5#4 0#16 0#8
  | .clock n       => mkWord 0x6#4 n 0#8
  | .irqState      => mkWord 0x7#4 0#16 0#8
  | .irqClear      => mkWord 0x8#4 0#16 0#8
  | .getMirror     => mkWord 0x9#4 0#16 0#8
  | .saveRead o    => mkWord 0xA#4 o 0#8
  | .saveWrite o v => mkWord 0xB#4 o v
  | .dirtyRead     => mkWord 0xC#4 0#16 0#8
  | .dirtyClear    => mkWord 0xD#4 0#16 0#8
  | .sReset a v | .sShiftControl a v | .sShiftChr0 a v | .sShiftChr1 a v | .sShiftPrg a v
  | .eBankSelect a v | .eBankData a v | .eMirror a v | .eRamProtect a v | .eIrqLatch a v | .eIrqReload a v
  | .eIrqDisable a v | .eIrqEnable a v
  | .cPrg a v | .cMirror a v | .cChrLo a v | .cChrHi a v | .cIrqLatch a v | .cIrqControl a v | .cIrqAck a v
  | .cIgnoredA a v | .cIgnoredD a v | .cIgnoredE a v | .cIgnoredF3 a v => mkWord 0x1#4 a v

/-! ## Words of the opcode table, outside any profile -/

/-- The patterns of the second-level rows of Profile S in the opcode table (their "match"). -/
def tableRowsS : List Nat := [0x10800080, 0x10800000, 0x10A00000, 0x10C00000, 0x10E00000]

/-- The patterns of the second-level rows of Profile E in the opcode table. -/
def tableRowsE : List Nat :=
  [0x10800000, 0x10800100, 0x10A00000, 0x10A00100, 0x10C00000, 0x10C00100, 0x10E00000, 0x10E00100]

/-- The profile a register write of the opcode table is read in, no profile being given: that of the first row of
the table whose pattern is the word itself, and else Profile C, the profile of the reset state (log entry 5). -/
def tableProfile (w : Nat) : Profile :=
  if tableRowsS.contains w then .S else if tableRowsE.contains w then .E else .C

/-- What the decoder reads from a word of the opcode table; a transaction is one 32-bit word (R91). -/
def decodeTableWord (nbits w : Nat) : Option Instr :=
  let w := w % 2 ^ nbits
  if nbits ≤ 32 then (decode (tableProfile w) (BitVec.ofNat 32 w)).toOption else none

end Sys2Proof
end

