-- ==== Sys2Proof/Machine/ReferenceProfiles.lean ====
section
/-! DEFINITION. The three reference profiles (46_variant_profiles R242, R248, R257, 70_reset_and_hazards R301),
the profile data of a `Profile`, the header encoding `enc` (R155) and the reference registry (R266). -/

namespace Sys2Proof

/-- A window whose bank is register `r` shifted right by `shr` (R120). -/
def variableWindow {n : Nat} (base size : Nat) (r : Fin n) (shr : Fin 8 := 0) : Window n :=
  { base, size, policy := .variable r shr }

/-- A window fixed on the first bank (R122). -/
def fixedFirstWindow {n : Nat} (base size : Nat) : Window n := { base, size, policy := .fixedFirst }

/-- A window fixed on the last bank (R122). -/
def fixedLastWindow {n : Nat} (base size : Nat) : Window n := { base, size, policy := .fixedLast }

/-- A commit of any value to a target (R203). -/
def commitRow (acts : List (Action Operand)) : WriteRow := { acts }

/-- Profile S (R242); its commits are R203 and R244 to R247, its reset values R301. -/
def profileS : ProfileData where
  prgLayout := #v[
    [variableWindow 0x8000 0x8000 0 1],
    [variableWindow 0x8000 0x8000 0 1],
    [fixedFirstWindow 0x8000 0x4000, variableWindow 0xC000 0x4000 0],
    [variableWindow 0x8000 0x4000 0, fixedLastWindow 0xC000 0x4000]]
  chrLayout := #v[
    [variableWindow 0x0000 0x2000 0 1],
    [variableWindow 0x0000 0x1000 0, variableWindow 0x1000 0x1000 1]]
  mirrorSource := .register
  mirrorDecode := #v[.oneScreenLow, .oneScreenHigh, .vertical, .horizontal]
  serial := true
  serialTarget := .split 14 (.split 13 (.target .t0) (.target .t1)) (.split 13 (.target .t2) (.target .t3))
  commits := {
    t0 := [commitRow [.mirrorField (.data 0 2), .prgMode (.data 2 2), .chrMode (.data 4 1)]]
    t1 := [commitRow [.chrBank 0 (.data 0 5)]]
    t2 := [commitRow [.chrBank 1 (.data 0 5)]]
    t3 := [commitRow [.prgBank 0 (.data 0 4), .ramEnable (.notData 4)]] }
  fixedBankMode := 3
  irqFamily := .none
  resetValues := { prgMode := 3 }

/-- The PRG layout of Profile E in every mode (R248). -/
def prgWindowsE : List (Window 4) :=
  [variableWindow 0x8000 0x2000 0, variableWindow 0xA000 0x2000 1, fixedLastWindow 0xC000 0x4000]

/-- A row of Profile E's decode, by `a & 0xE001` (R248). -/
def rowE (aMatch : Addr) (acts : List (Action Operand)) : WriteRow := { aMask := 0xE001, aMatch, acts }

/-- A bank-data row of Profile E for one value of `sel` (R250). -/
def rowEData (k : BitVec 3) (act : Action Operand) : WriteRow :=
  { aMask := 0xE001, aMatch := 0x8001, selMask := 7, selMatch := k, acts := [act] }

/-- `WRITE_DECODE` of Profile E (R249 to R256). -/
def writeRowsE : List WriteRow :=
  [rowE 0x8000 [.sel (.data 0 3), .chrMode (.data 7 1)],
   rowEData 0 (.chrBank 0 (.data 0 8)), rowEData 1 (.chrBank 1 (.data 0 8)), rowEData 2 (.chrBank 2 (.data 0 8)),
   rowEData 3 (.chrBank 3 (.data 0 8)), rowEData 4 (.chrBank 4 (.data 0 8)), rowEData 5 (.chrBank 5 (.data 0 8)),
   rowEData 6 (.prgBank 0 (.data 0 8)), rowEData 7 (.prgBank 1 (.data 0 8)),
   rowE 0xA000 [.mirrorField (.data 0 1)],
   rowE 0xA001 [.ramEnable (.data 7 1), .ramProtect (.data 6 1)],
   rowE 0xC000 [.irqLatch (.data 0 8)],
   rowE 0xC001 [.irqReload],
   rowE 0xE000 [.irqEnable (.lit 0)],
   rowE 0xE001 [.irqEnable (.lit 1)]]

/-- Profile E (R248). -/
def profileE : ProfileData where
  prgLayout := #v[prgWindowsE, prgWindowsE, prgWindowsE, prgWindowsE]
  chrLayout := #v[
    [variableWindow 0x0000 0x0800 0, variableWindow 0x0800 0x0800 1,
     variableWindow 0x1000 0x0400 2, variableWindow 0x1400 0x0400 3,
     variableWindow 0x1800 0x0400 4, variableWindow 0x1C00 0x0400 5],
    [variableWindow 0x0000 0x0400 2, variableWindow 0x0400 0x0400 3,
     variableWindow 0x0800 0x0400 4, variableWindow 0x0C00 0x0400 5,
     variableWindow 0x1000 0x0800 0, variableWindow 0x1800 0x0800 1]]
  mirrorSource := .register
  mirrorDecode := #v[.vertical, .horizontal, .vertical, .horizontal]
  serial := false
  writeRows := writeRowsE
  irqFamily := .edge
  edgeBit := 12

/-- The PRG layout of Profile C in every mode (R257). -/
def prgWindowsC : List (Window 4) := [variableWindow 0x8000 0x4000 0, fixedLastWindow 0xC000 0x4000]

/-- The CHR layout of Profile C in both modes (R257). -/
def chrWindowsC : List (Window 8) :=
  [variableWindow 0x0000 0x0400 0, variableWindow 0x0400 0x0400 1,
   variableWindow 0x0800 0x0400 2, variableWindow 0x0C00 0x0400 3,
   variableWindow 0x1000 0x0400 4, variableWindow 0x1400 0x0400 5,
   variableWindow 0x1800 0x0400 6, variableWindow 0x1C00 0x0400 7]

/-- A row of Profile C decoded by `a[15:12]` (R257). -/
def rowC (aMatch : Addr) (acts : List (Action Operand)) : WriteRow := { aMask := 0xF000, aMatch, acts }

/-- A CHR bank row of Profile C for one value of `a[1:0]` (R260, R261). -/
def rowCChr (aMatch : Addr) (j : Fin 8) : WriteRow := { aMask := 0xF003, aMatch, acts := [.chrBank j (.data 0 8)] }

/-- An IRQ row of Profile C decoded by `a & 0xF003` (R257), for any data byte unless `vMask` says otherwise. -/
def rowCIrq (aMatch : Addr) (acts : List (Action Operand)) (vMask vMatch : Byte := 0) : WriteRow :=
  { aMask := 0xF003, aMatch, vMask, vMatch, acts }

/-- `WRITE_DECODE` of Profile C (R258 to R265; the ignored addresses of R265 match no row). -/
def writeRowsC : List WriteRow :=
  [rowC 0x8000 [.prgBank 0 (.data 0 8)],
   rowC 0x9000 [.mirrorField (.data 0 2)],
   rowCChr 0xB000 0, rowCChr 0xB001 1, rowCChr 0xB002 2, rowCChr 0xB003 3,
   rowCChr 0xC000 4, rowCChr 0xC001 5, rowCChr 0xC002 6, rowCChr 0xC003 7,
   rowCIrq 0xF000 [.irqLatch (.data 0 8)],
   rowCIrq 0xF001 [.irqEnable (.data 0 1), .countMode (.data 1 1), .irqCounterLoad] 1 1,
   rowCIrq 0xF001 [.irqEnable (.data 0 1), .countMode (.data 1 1)] 1 0,
   rowCIrq 0xF002 [.irqAck]]

/-- Profile C (R257). -/
def profileC : ProfileData where
  prgLayout := #v[prgWindowsC, prgWindowsC, prgWindowsC, prgWindowsC]
  chrLayout := #v[chrWindowsC, chrWindowsC]
  mirrorSource := .register
  mirrorDecode := #v[.vertical, .horizontal, .oneScreenLow, .oneScreenHigh]
  serial := false
  writeRows := writeRowsC
  irqFamily := .counter
  counterDir := .up
  wrapWhenDisabled := .modular

/-- The configuration fields of a profile. -/
def Profile.data : Profile → ProfileData
  | .S => profileS
  | .E => profileE
  | .C => profileC
  | .other d => d

/-- `enc(m)`: the least field value that decodes to `m`, or 0 when none does (R155). -/
def ProfileData.enc (d : ProfileData) (m : Mirroring) : BitVec 2 :=
  if d.mirrorDecode[0] = m then 0
  else if d.mirrorDecode[1] = m then 1
  else if d.mirrorDecode[2] = m then 2
  else if d.mirrorDecode[3] = m then 3
  else 0

/-- The reference registry: 1 is Profile S, 4 Profile E, 21 Profile C, every other number has no entry (R266). -/
def referenceRegistry (n : Nat) : Option RegistryEntry :=
  if n = 1 then some .S
  else if n = 4 then some .E
  else if n = 21 then some .C
  else none

end Sys2Proof
end

