-- ==== Sys2Proof/Machine/State.lean ====
section
/-! DEFINITION. The state of one instance (10_state R20 to R42), with its configuration, the host's stream of
transactions and the output of the last transaction beside it; the reasons a step can stop; the reset state. -/

namespace Sys2Proof.Machine

/-- What a transaction returns to the host (R85). -/
inductive Response where
  /-- The transaction returns nothing. -/
  | none
  /-- A byte response. -/
  | byte (b : Byte)
  /-- A bit response, the source's `bool`. -/
  | bit (b : Bool)
  /-- A mirroring code, 0 to 4 (R85). -/
  | mirror (code : BitVec 3)
  deriving DecidableEq, Repr

/-- A diagnostic event with its recorded value (R282, R283). -/
inductive Diag where
  /-- An out-of-range CPU or PPU access, with its address (R283). -/
  | invalidAddress (a : Addr)
  /-- The first wrapping decode of the instance, with the store it reached (R282). -/
  | sizeMismatch (store : Store)
  deriving DecidableEq, Repr

/-- The part of the CPU space an address lies in (R61). `unclaimed` is what R61's map names no unit for: an address at
or above `CPU_WINDOW_LO` and below 0x6000, which there is only for a window that starts below 0x6000 (log entry 10). -/
inductive CpuRegion where
  | outOfRange | unclaimed | prgRam | prgRom
  deriving DecidableEq, Repr

/-- The state of one instance. The fields from `prgBank` to `prgRam` are R42's record, field for field.
`cfg` is the configuration (R6), which no transaction changes. `stream` is the host's transactions not yet performed,
the first one next, and `position` how many have been performed: what stands in place of a program counter
(R41, D2). `response` and `diag` are the output of the last transaction (R85, R284); no rule reads them. -/
structure State where
  cfg              : Config
  prgBank          : Vector Byte 4
  chrBank          : Vector Byte 8
  sel              : BitVec 3
  prgMode          : BitVec 2
  chrMode          : Bool
  mirrorField      : BitVec 2
  ramEnable        : Bool
  ramProtect       : Bool
  dirty            : Bool
  shift            : BitVec 5
  count            : BitVec 3
  irqLatch         : Byte
  irqCounter       : Byte
  irqEnable        : Bool
  irqPending       : Bool
  irqReload        : Bool
  countMode        : Bool
  edgePrev         : Bool
  diagSizeMismatch : Bool
  chrMem           : Memory
  prgRam           : Memory
  stream           : List Word
  position         : Nat
  response         : Response
  diag             : Option Diag
  deriving DecidableEq, Repr

/-- The block has no fault: "No transaction … raises an exception, aborts or faults" (R280). The type has no
constructor, so no meaning can stop with a fault; nobody raises one, and that is safe because R280 says the same. -/
inductive Fault where
  deriving DecidableEq, Repr

/-- Why the model stops. None of these is a behaviour of the block (R86, R105). -/
inductive Refusal where
  /-- Raised by an arm of `exec` whose instruction has no meaning yet; no arm does. Safe. -/
  | notModelled (mnemonic : String)
  /-- Raised by `step` for a word that is no transaction, with the reason (R86). Safe: the host never issues one. -/
  | illegalWord (w : Word) (reason : DecodeError)
  /-- Raised by a bank decode when no window of the profile's layout answers the address: only in a state whose
  profile fails W1 or W2 of R105, for which construction gives no instance. Safe: "the model has no instance for it". -/
  | profileRefused (store : Store)
  deriving DecidableEq, Repr

/-- The three outcomes of a step of this machine. -/
abbrev Outcome := Host.Outcome State Fault Refusal

/-- The configuration of the reset instance: a Profile C cartridge with blank PRG-ROM, created CHR-RAM and 8 KiB of
PRG-RAM (DESIGN CHOICE, unsafe, log entry 2: the spec names no cartridge). -/
def resetConfig : Config where
  mapperNumber := 21
  profile := .C
  prgRom := []
  prgSize := 0x8000
  chrIsRam := true
  chrSize := 8192
  ramSize := 0x2000
  hasBattery := false
  headerMirror := .vertical
  cpuWindowLo := 0x6000
  chrRamDefaultSize := 8192

/-- The machine right after construction, which is the machine right after reset (R106, R301, R303), of the instance
`resetConfig`, with nothing in the host's stream. RAM contents are the draw "all zero" (log entry 4). -/
def State.reset : State where
  cfg := resetConfig
  prgBank := Vector.replicate 4 0
  chrBank := Vector.replicate 8 0
  sel := 0
  prgMode := 0
  chrMode := false
  mirrorField := 0
  ramEnable := true
  ramProtect := false
  dirty := false
  shift := 0
  count := 0
  irqLatch := 0
  irqCounter := 0
  irqEnable := false
  irqPending := false
  irqReload := false
  countMode := false
  edgePrev := false
  diagSizeMismatch := false
  chrMem := []
  prgRam := []
  stream := []
  position := 0
  response := .none
  diag := none

end Sys2Proof.Machine
end

