-- ==== Sys2Proof/Machine/Ops.lean ====
section
/-! DEFINITION. The named operations over memory and registers.
Memory: one byte at an offset, in canonical form (R10, R63). Registers: one named update per field, which is the one
way the rest of the model writes it. Register actions (R240), reset (R300), the answer of a transaction (R85, R284).
The block takes no exception and returns from none (R280, R288, R289): what a trap-taking processor has here is, in
this block, the interrupt level, raised and cleared by `raiseIrq` and `clearIrq` (R171, R188). -/

namespace Sys2Proof

/-! ## Memory -/

/-- What an unlisted offset reads as (log entry 3). -/
def Memory.unlisted : Byte := 0x00

/-- The canonical form: offsets strictly rising, no entry equal to what an unlisted offset reads as. -/
abbrev Memory.wf (m : Memory) : Prop :=
  m.Pairwise (fun x y => x.1 < y.1) ∧ ∀ c ∈ m, c.2 ≠ Memory.unlisted

/-- Every listed offset lies in a store of `size` bytes. -/
abbrev Memory.within (m : Memory) (size : Nat) : Prop := ∀ c ∈ m, c.1 < size

/-- `MemRead(store, o)` (R10). -/
def Memory.read : Memory → Nat → Byte
  | [], _ => Memory.unlisted
  | c :: m, o => if o = c.1 then c.2 else Memory.read m o

/-- `MemWrite(store, o, v)` (R10), keeping the canonical form. -/
def Memory.write : Memory → Nat → Byte → Memory
  | [], o, v => if v = Memory.unlisted then [] else [(o, v)]
  | c :: m, o, v =>
    if o < c.1 then (if v = Memory.unlisted then c :: m else (o, v) :: c :: m)
    else if o = c.1 then (if v = Memory.unlisted then m else (o, v) :: m)
    else c :: Memory.write m o v

/-- The store of `size` bytes that holds the listed cells, a later cell over an earlier one, and 0x00 elsewhere:
how a byte array of the loader's or a draw becomes a store (R103, R106). -/
def Memory.ofCells (size : Nat) (cells : List Host.Cell) : Memory :=
  cells.foldl (fun m c => if c.1 < size then m.write c.1 c.2 else m) []

namespace Machine

/-- The open-bus value (R112, R222; 93 I12). -/
def openBus : Byte := 0xFF

/-- The field of `len` bits at `lo`, as a byte (R9 `v[hi:lo]`, `zext_8`). -/
def byteField (x : Byte) (lo len : Nat) : Byte := (x.extractLsb' lo len).setWidth 8

/-- The field of `len` bits of an address at `lo`, as a byte. -/
def addrField (x : Addr) (lo len : Nat) : Byte := (x.extractLsb' lo len).setWidth 8

/-- A bit as a byte 0 or 1. -/
def bitByte (b : Bool) : Byte := if b then 1 else 0

/-! ## Registers: one update per field -/

def State.setPrgBank (s : State) (i : Fin 4) (v : Byte) : State := { s with prgBank := s.prgBank.set i v }
def State.setChrBank (s : State) (j : Fin 8) (v : Byte) : State := { s with chrBank := s.chrBank.set j v }
def State.setSel (s : State) (v : BitVec 3) : State := { s with sel := v }
def State.setPrgMode (s : State) (m : BitVec 2) : State := { s with prgMode := m }
def State.setChrMode (s : State) (b : Bool) : State := { s with chrMode := b }
def State.setMirrorField (s : State) (f : BitVec 2) : State := { s with mirrorField := f }
def State.setRamEnable (s : State) (b : Bool) : State := { s with ramEnable := b }
def State.setRamProtect (s : State) (b : Bool) : State := { s with ramProtect := b }
def State.setDirty (s : State) (b : Bool) : State := { s with dirty := b }
def State.setSerial (s : State) (shift : BitVec 5) (count : BitVec 3) : State := { s with shift, count }
def State.setIrqLatch (s : State) (v : Byte) : State := { s with irqLatch := v }
def State.setIrqCounter (s : State) (v : Byte) : State := { s with irqCounter := v }
def State.setIrqEnable (s : State) (b : Bool) : State := { s with irqEnable := b }
def State.setIrqPending (s : State) (b : Bool) : State := { s with irqPending := b }
def State.setIrqReload (s : State) (b : Bool) : State := { s with irqReload := b }
def State.setCountMode (s : State) (b : Bool) : State := { s with countMode := b }
def State.setEdgePrev (s : State) (b : Bool) : State := { s with edgePrev := b }
def State.setDiagSizeMismatch (s : State) (b : Bool) : State := { s with diagSizeMismatch := b }
def State.setChrMem (s : State) (m : Memory) : State := { s with chrMem := m }
def State.setPrgRam (s : State) (m : Memory) : State := { s with prgRam := m }
def State.setFetch (s : State) (stream : List Word) (position : Nat) : State := { s with stream, position }
def State.setOutput (s : State) (response : Response) (diag : Option Diag) : State := { s with response, diag }

/-! ## The interrupt level -/

/-- The engine asserts the interrupt; a second assertion changes nothing (R171, R173). -/
def raiseIrq (s : State) : State := s.setIrqPending true

/-- An explicit clear of the interrupt (R181, R185, R187). -/
def clearIrq (s : State) : State := s.setIrqPending false

/-- Writing `irq_enable`; disabling also clears the interrupt, enabling leaves it (R185). -/
def writeIrqEnable (b : Bool) (s : State) : State :=
  if b then s.setIrqEnable true else clearIrq (s.setIrqEnable false)

/-! ## Register actions -/

/-- One register action (R240, R182 to R187): each field keeps the low bits the rule names (R24). -/
def applyAction (act : Action Byte) (s : State) : State :=
  match act with
  | .prgBank i v => s.setPrgBank i v
  | .chrBank j v => s.setChrBank j v
  | .sel v => s.setSel (v.extractLsb' 0 3)
  | .prgMode m => s.setPrgMode (m.extractLsb' 0 2)
  | .chrMode b => s.setChrMode (b.getLsbD 0)
  | .mirrorField f => s.setMirrorField (f.extractLsb' 0 2)
  | .ramEnable b => s.setRamEnable (b.getLsbD 0)
  | .ramProtect b => s.setRamProtect (b.getLsbD 0)
  | .irqLatch v => s.setIrqLatch v
  | .irqCounterLoad => s.setIrqCounter s.irqLatch
  | .irqReload => s.setIrqReload true
  | .irqEnable b => writeIrqEnable (b.getLsbD 0) s
  | .countMode b => s.setCountMode (b.getLsbD 0)
  | .irqAck => clearIrq s

/-- The actions of one write, in list order, each seeing the effects of the ones before (R241, D37). -/
def applyActions (acts : List (Action Byte)) (s : State) : State :=
  acts.foldl (fun s act => applyAction act s) s

/-! ## Reset -/

/-- The reset value of `mirror_field` (R301, R155). -/
def resetMirrorField (cfg : Config) : BitVec 2 :=
  match cfg.profile.data.resetValues.mirrorField with
  | .encHeader => cfg.profile.data.enc cfg.headerMirror
  | .value f => f

/-- `reset(s)`: every register field at its reset value; the memories, `dirty` and `diag_size_mismatch` unchanged
(R300). -/
def resetRegisters (s : State) : State :=
  let r := s.cfg.profile.data.resetValues
  { s with
    prgBank := r.prgBank, chrBank := r.chrBank, sel := 0
    prgMode := r.prgMode, chrMode := r.chrMode, mirrorField := resetMirrorField s.cfg
    ramEnable := r.ramEnable, ramProtect := r.ramProtect
    shift := 0, count := 0
    irqLatch := 0, irqCounter := 0, irqEnable := false, irqPending := false, irqReload := false
    countMode := false, edgePrev := false }

/-! ## The end of a transaction -/

/-- The transaction completes with this response and diagnostic event (R280, R284). -/
def answer (s : State) (response : Response) (diag : Option Diag) : Outcome := .next (s.setOutput response diag)

/-- The transaction completes and returns nothing. -/
def done (s : State) : Outcome := answer s .none none

end Machine
end Sys2Proof
end

