-- ==== Sys2Proof/Machine/Operands.lean ====
section
/-! DEFINITION. What the operands of a transaction name: the region of a CPU or PPU address (R61, R62), the offset a
bank decode gives (41_bank_decoder R120 to R130), the PRG-RAM offset (R221), the serial target (R200), and the
operands of a profile's register actions (R89, R240, R241). -/

namespace Sys2Proof

/-! ## Address regions -/

namespace Machine

/-- The CPU address is in range: `>= CPU_WINDOW_LO` (R13). -/
def cpuInRange (s : State) (a : Addr) : Bool := s.cfg.cpuWindowLo.toNat ≤ a.toNat

/-- The region of a CPU address (R61). -/
def cpuRegion (s : State) (a : Addr) : CpuRegion :=
  if !cpuInRange s a then .outOfRange
  else if a.toNat < 0x6000 then .unclaimed
  else if a.toNat ≤ 0x7FFF then .prgRam
  else .prgRom

/-- The PPU address is in the pattern-table space (R62). -/
def ppuInRange (a : Addr) : Bool := a.toNat ≤ 0x1FFF

end Machine

/-! ## The bank decode -/

/-- The window answers the address (R120). -/
def Window.answers {n : Nat} (w : Window n) (a : Nat) : Bool := spanAnswers w.span a

/-- `nb(S, g) = max(1, S div g)` (R121, D6). -/
def bankCount (storeSize windowSize : Nat) : Nat := max 1 (storeSize / windowSize)

/-- `raw(s, W, S)` over the bank register file the window's space uses (R122). -/
def Window.raw {n : Nat} (w : Window n) (regs : Vector Byte n) (storeSize : Nat) : Nat :=
  match w.policy with
  | .fixedFirst => 0
  | .fixedLast => bankCount storeSize w.size - 1
  | .variable r shr => regs[r].toNat >>> shr.val

/-- `bank(s, W, S) = raw(s, W, S) mod nb(S, W.size)` (R123). -/
def Window.bank {n : Nat} (w : Window n) (regs : Vector Byte n) (storeSize : Nat) : Nat :=
  w.raw regs storeSize % bankCount storeSize w.size

/-- `bank * W.size + (a - W.base)`, before the final wrap (R124). -/
def Window.unwrapped {n : Nat} (w : Window n) (regs : Vector Byte n) (storeSize a : Nat) : Nat :=
  w.bank regs storeSize * w.size + (a - w.base)

/-- `window_offset(s, W, a, S)`, with the final `mod S` (R124). -/
def Window.offset {n : Nat} (w : Window n) (regs : Vector Byte n) (storeSize a : Nat) : Nat :=
  w.unwrapped regs storeSize a % storeSize

/-- The decode wraps (R130). -/
def Window.wraps {n : Nat} (w : Window n) (regs : Vector Byte n) (storeSize a : Nat) : Bool :=
  decide (bankCount storeSize w.size ≤ w.raw regs storeSize) || decide (storeSize ≤ w.unwrapped regs storeSize a)

/-- The window of a layout that answers the address; exactly one does in a tiled layout (R127, R128, R105). -/
def findWindow {n : Nat} (layout : List (Window n)) (a : Nat) : Option (Window n) :=
  layout.find? (·.answers a)

/-! ## Operands of register actions -/

/-- The value of an action's operand in a write of `v` to `a` (R89, R240). -/
def Operand.eval (a : Addr) (v : Byte) : Operand → Byte
  | .lit b => b
  | .data lo len => Machine.byteField v lo len
  | .notData k => Machine.bitByte (!v.getLsbD k)
  | .addr lo len => Machine.addrField a lo len

/-- An action with its operand put through `f`. -/
def Action.map {α β : Type} (f : α → β) : Action α → Action β
  | .prgBank i v => .prgBank i (f v)
  | .chrBank j v => .chrBank j (f v)
  | .sel v => .sel (f v)
  | .prgMode m => .prgMode (f m)
  | .chrMode b => .chrMode (f b)
  | .mirrorField x => .mirrorField (f x)
  | .ramEnable b => .ramEnable (f b)
  | .ramProtect b => .ramProtect (f b)
  | .irqLatch v => .irqLatch (f v)
  | .irqCounterLoad => .irqCounterLoad
  | .irqReload => .irqReload
  | .irqEnable b => .irqEnable (f b)
  | .countMode b => .countMode (f b)
  | .irqAck => .irqAck

/-- The row claims a write of `v` to `a` while `sel` holds `sel` (R89, R250). -/
def WriteRow.claims (r : WriteRow) (sel : BitVec 3) (a : Addr) (v : Byte) : Bool :=
  (a &&& r.aMask) == r.aMatch && (v &&& r.vMask) == r.vMatch && (sel &&& r.selMask) == r.selMatch

/-- The actions of the first row that claims the write, or none (R203, R241). -/
def decodeActions (rows : List WriteRow) (sel : BitVec 3) (a : Addr) (v : Byte) : List (Action Byte) :=
  match rows.find? (·.claims sel a v) with
  | some r => r.acts.map (Action.map (Operand.eval a v))
  | none => []

/-- The action writes a field of the IRQ engine (R182 to R187). -/
def Action.isIrq {α : Type} : Action α → Bool
  | .irqLatch _ | .irqCounterLoad | .irqReload | .irqEnable _ | .countMode _ | .irqAck => true
  | .prgBank _ _ | .chrBank _ _ | .sel _ | .prgMode _ | .chrMode _ | .mirrorField _ | .ramEnable _ | .ramProtect _ => false

/-- The register decode of the profile over one of its tables. That of a profile with `IRQ_FAMILY = None` "produces no
IRQ action" (R189), so it leaves out any that such a table holds (DEDUCED, log entry 20). -/
def ProfileData.produces (d : ProfileData) (rows : List WriteRow) (sel : BitVec 3) (a : Addr) (v : Byte) :
    List (Action Byte) :=
  if d.irqFamily = .none then (decodeActions rows sel a v).filter (fun act => !act.isIrq) else decodeActions rows sel a v

/-- `WRITE_DECODE(a, v)` (R6, R241). -/
def ProfileData.writeDecode (d : ProfileData) (sel : BitVec 3) (a : Addr) (v : Byte) : List (Action Byte) :=
  d.produces d.writeRows sel a v

/-! ## Serial targets -/

/-- `SERIAL_TARGET(a)` (R200, R204). -/
def TargetMap.lookup (a : Addr) : TargetMap → Target
  | .target t => t
  | .split bit zero one => if a.getLsbD bit then one.lookup a else zero.lookup a

/-- The rows of a target (R203). -/
def Commits.of (c : Commits) : Target → List WriteRow
  | .t0 => c.t0
  | .t1 => c.t1
  | .t2 => c.t2
  | .t3 => c.t3

/-- The register actions of `commit(s, T, value)`, as the profile defines them (R203). -/
def ProfileData.commitDecode (d : ProfileData) (t : Target) (sel : BitVec 3) (a : Addr) (value : BitVec 5) :
    List (Action Byte) := d.produces (d.commits.of t) sel a (value.setWidth 8)

namespace Machine

/-- The PRG window that answers a CPU address in the current PRG mode (R127). -/
def prgWindow (s : State) (a : Addr) : Option (Window 4) :=
  findWindow (s.cfg.profile.data.prgLayout[s.prgMode.toFin]) a.toNat

/-- The CHR window that answers a PPU address in the current CHR mode (R128). -/
def chrWindow (s : State) (a : Addr) : Option (Window 8) :=
  findWindow (if s.chrMode then s.cfg.profile.data.chrLayout[1] else s.cfg.profile.data.chrLayout[0]) a.toNat

/-- `prg_offset(s, a)` (R127); none where no window answers, which a well-formed profile excludes. -/
def prgOffset (s : State) (a : Addr) : Option Nat :=
  (prgWindow s a).map (fun w => w.offset s.prgBank s.cfg.prgSize a.toNat)

/-- `chr_offset(s, a)` (R128); none where no window answers, which a well-formed profile excludes. -/
def chrOffset (s : State) (a : Addr) : Option Nat :=
  (chrWindow s a).map (fun w => w.offset s.chrBank s.cfg.chrSize a.toNat)

/-- `ram_offset(a) = (a - 0x6000) mod S_ram` (R221). -/
def ramOffset (ramSize : Nat) (a : Addr) : Nat := (a.toNat - 0x6000) % ramSize

end Machine
end Sys2Proof
end

