-- ==== Sys2Proof/Machine/Flags.lean ====
section
/-! DEFINITION. Every flag computation: the interrupt engine's counter and pending flag (43_irq_engine R172 to R179),
the size-mismatch diagnostic (R130, R282) and the mirroring multiplexer (R151). -/

namespace Sys2Proof.Machine

/-! ## Edge-triggered family -/

/-- `edge_clock(s)`, on a rising edge (R173). Only the decrement that reaches 0 can raise the interrupt. -/
def edgeClock (s : State) : State :=
  if s.irqReload then (s.setIrqCounter s.irqLatch).setIrqReload false
  else if s.irqCounter = 0 then s.setIrqCounter s.irqLatch
  else
    let s' := s.setIrqCounter (s.irqCounter - 1)
    if s'.irqCounter = 0 ∧ s'.irqEnable then raiseIrq s' else s'

/-- The level of the watched address line (R172). -/
def edgeLevel (s : State) (a : Addr) : Bool := a.getLsbD s.cfg.profile.data.edgeBit

/-- The access is a rising edge of the watched line that clocks the engine (R172, R174). -/
def edgeRises (s : State) (a : Addr) : Bool :=
  s.cfg.profile.data.irqFamily == .edge && !s.edgePrev && edgeLevel s a

/-- `edge_hook(s, a)`, run by every in-range PPU access before its data access (R172). -/
def edgeHook (s : State) (a : Addr) : State :=
  if edgeRises s a then (edgeClock s).setEdgePrev (edgeLevel s a) else s.setEdgePrev (edgeLevel s a)

/-! ## Counter-driven family -/

/-- A tick at the wrap: `modular` is the counter's plain next value (R176, R177). -/
def wrapTick (modular : Byte) (s : State) : State :=
  if s.irqEnable then (raiseIrq s).setIrqCounter s.irqLatch
  else match s.cfg.profile.data.wrapWhenDisabled with
    | .reload => s.setIrqCounter s.irqLatch
    | .modular => s.setIrqCounter modular

/-- `tick_up(s)` (R176). -/
def tickUp (s : State) : State :=
  if s.irqCounter = 0xFF then wrapTick 0x00 s else s.setIrqCounter (s.irqCounter + 1)

/-- `tick_down(s)` (R177). -/
def tickDown (s : State) : State :=
  if s.irqCounter = 0x00 then wrapTick 0xFF s else s.setIrqCounter (s.irqCounter - 1)

/-- `tick(s)`, by `COUNTER_DIR` (R178). -/
def tick (s : State) : State :=
  match s.cfg.profile.data.counterDir with
  | .up => tickUp s
  | .down => tickDown s

/-- `repeat n times: tick(s)` (R179). -/
def ticks : Nat → State → State
  | 0, s => s
  | n + 1, s => ticks n (tick s)

/-- A `scanline()` ticks the counter (R178). -/
def scanlineTicks (s : State) : Bool := s.cfg.profile.data.irqFamily == .counter && !s.countMode

/-- A `clock(n)` ticks the counter (R179). -/
def clockTicks (s : State) : Bool := s.cfg.profile.data.irqFamily == .counter && s.countMode

/-! ## Size mismatch -/

/-- The diagnostic a decode emits: `SizeMismatch` for the first wrapping decode of the instance (R130, R282). -/
def mismatchDiag (s : State) (store : Store) (wraps : Bool) : Option Diag :=
  if wraps && !s.diagSizeMismatch then some (.sizeMismatch store) else none

/-- The diagnostic bit after a decode (R130). -/
def noteWrap (s : State) (wraps : Bool) : State :=
  if wraps then s.setDiagSizeMismatch true else s

/-! ## Mirroring -/

/-- `mirror_mode(s)` (R151). -/
def mirrorMode (s : State) : Mirroring :=
  if s.cfg.headerMirror = .fourScreen then .fourScreen
  else match s.cfg.profile.data.mirrorSource with
    | .header => s.cfg.headerMirror
    | .register => s.cfg.profile.data.mirrorDecode[s.mirrorField.toFin]

/-- The response code of a mode (R85). -/
def mirrorCode : Mirroring → BitVec 3
  | .horizontal => 0
  | .vertical => 1
  | .oneScreenLow => 2
  | .oneScreenHigh => 3
  | .fourScreen => 4

end Sys2Proof.Machine
end

