-- ==== Sys2Proof/Machine/RegisterWrite.lean ====
section
/-! DEFINITION. Writing through the CPU bus: the PRG-RAM guard (R222, R223), the serial loader (44_serial_loader R201 to
R207), the direct-write decode (R241), and the dispatch of a `cpu_write` between them (R109). -/

namespace Sys2Proof.Machine

/-! ## PRG-RAM guard -/

/-- The guard lets a CPU read through (R222). -/
def ramReadable (s : State) : Bool := s.cfg.ramSize != 0 && s.ramEnable

/-- The guard lets a CPU write through (R223). -/
def ramWritable (s : State) : Bool := s.cfg.ramSize != 0 && s.ramEnable && !s.ramProtect

/-- `ram_read(s, a)` (R222). -/
def ramRead (s : State) (a : Addr) : Byte :=
  if ramReadable s then s.prgRam.read (ramOffset s.cfg.ramSize a) else openBus

/-- `ram_write(s, a, v)` (R223): an accepted write sets `dirty` whatever the value; a blocked one does nothing. -/
def ramWrite (a : Addr) (v : Byte) (s : State) : State :=
  if ramWritable s then (s.setPrgRam (s.prgRam.write (ramOffset s.cfg.ramSize a) v)).setDirty true else s

/-! ## Serial loader -/

/-- `shift[k] <- b` (R202): the bit at position `k` replaced. -/
def pushBit (shift : BitVec 5) (k : BitVec 3) (b : Bool) : BitVec 5 :=
  (shift &&& ~~~(1#5 <<< k.toNat)) ||| ((if b then 1#5 else 0#5) <<< k.toNat)

/-- A serial reset write: the partial bits discarded, the PRG mode forced, no commit (R201). -/
def serialReset (s : State) : State := (s.setSerial 0 0).setPrgMode s.cfg.profile.data.fixedBankMode

/-- A serial shift write of `b`; the fifth commits the five bits through `commit` (R202). -/
def serialShift (b : Bool) (commit : BitVec 5 → State → State) (s : State) : State :=
  let shift := pushBit s.shift s.count b
  if s.count = 4 then (commit shift (s.setSerial shift s.count)).setSerial 0 0
  else s.setSerial shift (s.count + 1)

/-- `commit(s, T, value)` by the profile's table (R203). Where the profile puts an IRQ field under a target, the commit is
a register action like any other: `IrqEnable(0)` and `IrqAck` clear `irq_pending` (R185, R187) though they come with a
serial write, of which R188 says that none changes it (DESIGN CHOICE, log entry 21). -/
def commitTarget (t : Target) (a : Addr) (value : BitVec 5) (s : State) : State :=
  applyActions (s.cfg.profile.data.commitDecode t s.sel a value) s

/-- `serial_write(s, a, v)` (R88, R201, R202, R204). -/
def serialWrite (a : Addr) (v : Byte) (s : State) : State :=
  if v.getLsbD 7 then serialReset s
  else serialShift (v.getLsbD 0) (commitTarget (s.cfg.profile.data.serialTarget.lookup a) a) s

/-! ## Dispatch of a write -/

/-- A write to the register range 0x8000..0xFFFF: the serial loader, or the profile's register actions (R109, R241). -/
def registerWrite (a : Addr) (v : Byte) (s : State) : State :=
  if s.cfg.profile.data.serial then serialWrite a v s
  else applyActions (s.cfg.profile.data.writeDecode s.sel a v) s

/-- `cpu_write(s, a, v)` (R109, R283): the PRG-RAM range always goes to the guard, never to a register (D5). A write to
an address no unit claims has no effect (DEDUCED, log entry 10). -/
def busWrite (a : Addr) (v : Byte) (s : State) : Outcome :=
  match cpuRegion s a with
  | .outOfRange => answer s .none (some (.invalidAddress a))
  | .unclaimed => done s
  | .prgRam => done (ramWrite a v s)
  | .prgRom => done (registerWrite a v s)

/-- A write of `v` to `a` as a second-level row of profile `p`: in that profile, at an address in range, the row's
effect; in any other profile, where the row does not exist (R90, log entry 11), and below `CPU_WINDOW_LO`, where a write
has no effect (R109), the first-level dispatch. -/
def rowWrite (p : Profile) (effect : State → State) (a : Addr) (v : Byte) (s : State) : Outcome :=
  if s.cfg.profile = p ∧ cpuInRange s a = true then done (effect s) else busWrite a v s

end Sys2Proof.Machine
end

