-- ==== Sys2Proof/Machine/Bus.lean ====
section
/-! DEFINITION. The four bus transactions (40_interface_registry R108 to R112). -/

namespace Sys2Proof.Machine

/-- A `cpu_read` of the PRG-ROM range through the PRG decode (R108, R127, R130). -/
def readPrgRom (a : Addr) (s : State) : Outcome :=
  match prgWindow s a with
  | none => .refused (.profileRefused .prg)
  | some w =>
    let wraps := w.wraps s.prgBank s.cfg.prgSize a.toNat
    answer (noteWrap s wraps) (.byte (s.cfg.prgRom.read (w.offset s.prgBank s.cfg.prgSize a.toNat)))
      (mismatchDiag s .prg wraps)

/-- `CPU_READ` (R108). An address no unit claims reads as open bus (R12; DEDUCED, log entry 10). -/
def execCpuRead (a : Addr) (s : State) : Outcome :=
  match cpuRegion s a with
  | .outOfRange => answer s (.byte openBus) (some (.invalidAddress a))
  | .unclaimed => answer s (.byte openBus) none
  | .prgRam => answer s (.byte (ramRead s a)) none
  | .prgRom => readPrgRom a s

/-- `CPU_WRITE` (R109). -/
def execCpuWrite (a : Addr) (v : Byte) (s : State) : Outcome := busWrite a v s

/-- The data access of an in-range `ppu_read`, after the edge hook (R110, R128, R130). -/
def readChr (a : Addr) (s : State) : Outcome :=
  match chrWindow s a with
  | none => .refused (.profileRefused .chr)
  | some w =>
    let wraps := w.wraps s.chrBank s.cfg.chrSize a.toNat
    answer (noteWrap s wraps) (.byte (s.chrMem.read (w.offset s.chrBank s.cfg.chrSize a.toNat)))
      (mismatchDiag s .chr wraps)

/-- The data access of an in-range `ppu_write`, after the edge hook (R111, R133): CHR-ROM decodes its address, so the
size mismatch is noted there too (log entry 7), and writes no byte. -/
def writeChr (a : Addr) (v : Byte) (s : State) : Outcome :=
  match chrWindow s a with
  | none => .refused (.profileRefused .chr)
  | some w =>
    let wraps := w.wraps s.chrBank s.cfg.chrSize a.toNat
    let mem := if s.cfg.chrIsRam then s.chrMem.write (w.offset s.chrBank s.cfg.chrSize a.toNat) v else s.chrMem
    answer ((noteWrap s wraps).setChrMem mem) .none (mismatchDiag s .chr wraps)

/-- `PPU_READ` (R110): the edge hook runs before the data access (R172, D36). -/
def execPpuRead (a : Addr) (s : State) : Outcome :=
  if ppuInRange a then readChr a (edgeHook s a) else answer s (.byte openBus) (some (.invalidAddress a))

/-- `PPU_WRITE` (R111). -/
def execPpuWrite (a : Addr) (v : Byte) (s : State) : Outcome :=
  if ppuInRange a then writeChr a v (edgeHook s a) else answer s .none (some (.invalidAddress a))

end Sys2Proof.Machine
end

