-- ==== Sys2Proof/Machine/Control.lean ====
section
/-! DEFINITION. Reset, the interrupt transactions and the mirroring query (R300, R178 to R181, R152). -/

namespace Sys2Proof.Machine

/-- `RESET` (R300). -/
def execReset (s : State) : Outcome := done (resetRegisters s)

/-- `SCANLINE` (R178): one tick in the counter family's scanline mode, otherwise no effect (R175). -/
def execScanline (s : State) : Outcome := done (if scanlineTicks s then tick s else s)

/-- `CLOCK n` (R179): `n` ticks in the counter family's cycle mode, otherwise no effect (R175). -/
def execClock (n : Addr) (s : State) : Outcome := done (if clockTicks s then ticks n.toNat s else s)

/-- `IRQ_STATE` (R180): the level itself, which the read leaves as it is. -/
def execIrqState (s : State) : Outcome := answer s (.bit s.irqPending) none

/-- `IRQ_CLEAR` (R181). -/
def execIrqClear (s : State) : Outcome := done (clearIrq s)

/-- `GET_MIRROR` (R152). -/
def execGetMirror (s : State) : Outcome := answer s (.mirror (mirrorCode (mirrorMode s))) none

end Sys2Proof.Machine
end

