-- ==== Sys2Proof/Machine/Persistence.lean ====
section
/-! DEFINITION. The persistence port (45_prg_ram_guard R224 to R227): not gated by the guard bits, no diagnostics. -/

namespace Sys2Proof.Machine

/-- `SAVE_READ o` (R224). -/
def execSaveRead (o : Addr) (s : State) : Outcome :=
  answer s (.byte (if o.toNat < s.cfg.ramSize then s.prgRam.read o.toNat else openBus)) none

/-- `SAVE_WRITE o v` (R225): `dirty` is not set. -/
def execSaveWrite (o : Addr) (v : Byte) (s : State) : Outcome :=
  done (if o.toNat < s.cfg.ramSize then s.setPrgRam (s.prgRam.write o.toNat v) else s)

/-- `DIRTY_READ` (R226): reading does not clear it. -/
def execDirtyRead (s : State) : Outcome := answer s (.bit s.dirty) none

/-- `DIRTY_CLEAR` (R227). -/
def execDirtyClear (s : State) : Outcome := done (s.setDirty false)

end Sys2Proof.Machine
end

