-- ==== Sys2Proof/Machine/ProfileC.lean ====
section
/-! DEFINITION. The second-level rows of Profile C (46_variant_profiles R258 to R265). -/

namespace Sys2Proof.Machine

/-- `C_PRG` (R258). -/
def execCPrg (a : Addr) (v : Byte) (s : State) : Outcome :=
  rowWrite .C (applyActions [.prgBank 0 v]) a v s

/-- `C_MIRROR` (R259). -/
def execCMirror (a : Addr) (v : Byte) (s : State) : Outcome :=
  rowWrite .C (applyActions [.mirrorField (byteField v 0 2)]) a v s

/-- `chr_bank[a[1:0]]` (R260). -/
def chrLoIndex (a : Addr) : Fin 8 := ((a.extractLsb' 0 2).setWidth 3).toFin

/-- `chr_bank[4 + a[1:0]]` (R261). -/
def chrHiIndex (a : Addr) : Fin 8 := (4#3 + (a.extractLsb' 0 2).setWidth 3).toFin

/-- `C_CHR_LO` (R260). -/
def execCChrLo (a : Addr) (v : Byte) (s : State) : Outcome :=
  rowWrite .C (applyActions [.chrBank (chrLoIndex a) v]) a v s

/-- `C_CHR_HI` (R261). -/
def execCChrHi (a : Addr) (v : Byte) (s : State) : Outcome :=
  rowWrite .C (applyActions [.chrBank (chrHiIndex a) v]) a v s

/-- `C_IRQ_LATCH` (R262). -/
def execCIrqLatch (a : Addr) (v : Byte) (s : State) : Outcome :=
  rowWrite .C (applyActions [.irqLatch v]) a v s

/-- The actions of `C_IRQ_CONTROL`: enable and mode, then the counter's load when enabling (R263, R287). -/
def irqControlActions (v : Byte) : List (Action Byte) :=
  [.irqEnable (byteField v 0 1), .countMode (byteField v 1 1)] ++ (if v.getLsbD 0 then [.irqCounterLoad] else [])

/-- `C_IRQ_CONTROL` (R263). -/
def execCIrqControl (a : Addr) (v : Byte) (s : State) : Outcome :=
  rowWrite .C (applyActions (irqControlActions v)) a v s

/-- `C_IRQ_ACK` (R264). -/
def execCIrqAck (a : Addr) (v : Byte) (s : State) : Outcome :=
  rowWrite .C (applyActions [.irqAck]) a v s

/-- `C_IGNORED_A` (R265): no action. -/
def execCIgnoredA (a : Addr) (v : Byte) (s : State) : Outcome := rowWrite .C (applyActions []) a v s

/-- `C_IGNORED_D` (R265): no action. -/
def execCIgnoredD (a : Addr) (v : Byte) (s : State) : Outcome := rowWrite .C (applyActions []) a v s

/-- `C_IGNORED_E` (R265): no action. -/
def execCIgnoredE (a : Addr) (v : Byte) (s : State) : Outcome := rowWrite .C (applyActions []) a v s

/-- `C_IGNORED_F3` (R265): no action. -/
def execCIgnoredF3 (a : Addr) (v : Byte) (s : State) : Outcome := rowWrite .C (applyActions []) a v s

end Sys2Proof.Machine
end

