-- ==== Sys2Proof/Machine/ProfileE.lean ====
section
/-! DEFINITION. The second-level rows of Profile E (46_variant_profiles R249 to R256). -/

namespace Sys2Proof.Machine

/-- `E_BANK_SELECT` (R249): `[Sel(v[2:0]), ChrMode(v[7])]`. -/
def execEBankSelect (a : Addr) (v : Byte) (s : State) : Outcome :=
  rowWrite .E (applyActions [.sel (byteField v 0 3), .chrMode (byteField v 7 1)]) a v s

/-- The register `sel` selects: `chr_bank[sel]` up to 5, then `prg_bank[0]` and `prg_bank[1]` (R250). -/
def bankDataAction (sel : BitVec 3) (v : Byte) : Action Byte :=
  if sel.toNat ≤ 5 then .chrBank sel.toFin v else if sel.toNat = 6 then .prgBank 0 v else .prgBank 1 v

/-- `E_BANK_DATA` (R250). -/
def execEBankData (a : Addr) (v : Byte) (s : State) : Outcome :=
  rowWrite .E (fun s => applyActions [bankDataAction s.sel v] s) a v s

/-- `E_MIRROR` (R251): `[MirrorField(zext_2(v[0]))]`. -/
def execEMirror (a : Addr) (v : Byte) (s : State) : Outcome :=
  rowWrite .E (applyActions [.mirrorField (byteField v 0 1)]) a v s

/-- `E_RAM_PROTECT` (R252): `[RamEnable(v[7]), RamProtect(v[6])]`. -/
def execERamProtect (a : Addr) (v : Byte) (s : State) : Outcome :=
  rowWrite .E (applyActions [.ramEnable (byteField v 7 1), .ramProtect (byteField v 6 1)]) a v s

/-- `E_IRQ_LATCH` (R253). -/
def execEIrqLatch (a : Addr) (v : Byte) (s : State) : Outcome :=
  rowWrite .E (applyActions [.irqLatch v]) a v s

/-- `E_IRQ_RELOAD` (R254). -/
def execEIrqReload (a : Addr) (v : Byte) (s : State) : Outcome :=
  rowWrite .E (applyActions [.irqReload]) a v s

/-- `E_IRQ_DISABLE` (R255). -/
def execEIrqDisable (a : Addr) (v : Byte) (s : State) : Outcome :=
  rowWrite .E (applyActions [.irqEnable 0]) a v s

/-- `E_IRQ_ENABLE` (R256). -/
def execEIrqEnable (a : Addr) (v : Byte) (s : State) : Outcome :=
  rowWrite .E (applyActions [.irqEnable 1]) a v s

end Sys2Proof.Machine
end

