-- ==== Sys2Proof/Machine/ProfileS.lean ====
section
/-! DEFINITION. The second-level rows of Profile S (46_variant_profiles R243 to R247). -/

namespace Sys2Proof.Machine

/-- `S_RESET` (R243, R201). -/
def execSReset (a : Addr) (v : Byte) (s : State) : Outcome :=
  rowWrite .S (fun s => (s.setSerial 0 0).setPrgMode 3) a v s

/-- What the fifth write to CONTROL commits (R244). -/
def commitControl (value : BitVec 5) (s : State) : State :=
  applyActions [.mirrorField (byteField (value.setWidth 8) 0 2), .prgMode (byteField (value.setWidth 8) 2 2),
    .chrMode (byteField (value.setWidth 8) 4 1)] s

/-- `S_SHIFT_CONTROL` (R244). -/
def execSShiftControl (a : Addr) (v : Byte) (s : State) : Outcome :=
  rowWrite .S (serialShift (v.getLsbD 0) commitControl) a v s

/-- `S_SHIFT_CHR0` (R245). -/
def execSShiftChr0 (a : Addr) (v : Byte) (s : State) : Outcome :=
  rowWrite .S (serialShift (v.getLsbD 0) (fun value => applyActions [.chrBank 0 (value.setWidth 8)])) a v s

/-- `S_SHIFT_CHR1` (R246). -/
def execSShiftChr1 (a : Addr) (v : Byte) (s : State) : Outcome :=
  rowWrite .S (serialShift (v.getLsbD 0) (fun value => applyActions [.chrBank 1 (value.setWidth 8)])) a v s

/-- What the fifth write to PRG commits (R247): the bank, then `RamEnable(1 - value[4])`. -/
def commitPrg (value : BitVec 5) (s : State) : State :=
  applyActions [.prgBank 0 (byteField (value.setWidth 8) 0 4), .ramEnable (bitByte (!value.getLsbD 4))] s

/-- `S_SHIFT_PRG` (R247). -/
def execSShiftPrg (a : Addr) (v : Byte) (s : State) : Outcome :=
  rowWrite .S (serialShift (v.getLsbD 0) commitPrg) a v s

end Sys2Proof.Machine
end

