-- ==== Sys2Proof/Machine/Dispatch.lean ====
section
/-! DEFINITION. The meaning of every transaction, one arm per constructor of Instr. -/

namespace Sys2Proof.Machine

def exec (i : Instr) (s : State) : Host.Outcome State Fault Refusal :=
  match i with
  | .cpuRead a => Sys2Proof.Machine.execCpuRead a s
  | .cpuWrite a v => Sys2Proof.Machine.execCpuWrite a v s
  | .ppuRead a => Sys2Proof.Machine.execPpuRead a s
  | .ppuWrite a v => Sys2Proof.Machine.execPpuWrite a v s
  | .reset => Sys2Proof.Machine.execReset s
  | .scanline => Sys2Proof.Machine.execScanline s
  | .clock n => Sys2Proof.Machine.execClock n s
  | .irqState => Sys2Proof.Machine.execIrqState s
  | .irqClear => Sys2Proof.Machine.execIrqClear s
  | .getMirror => Sys2Proof.Machine.execGetMirror s
  | .saveRead o => Sys2Proof.Machine.execSaveRead o s
  | .saveWrite o v => Sys2Proof.Machine.execSaveWrite o v s
  | .dirtyRead => Sys2Proof.Machine.execDirtyRead s
  | .dirtyClear => Sys2Proof.Machine.execDirtyClear s
  | .sReset a v => Sys2Proof.Machine.execSReset a v s
  | .sShiftControl a v => Sys2Proof.Machine.execSShiftControl a v s
  | .sShiftChr0 a v => Sys2Proof.Machine.execSShiftChr0 a v s
  | .sShiftChr1 a v => Sys2Proof.Machine.execSShiftChr1 a v s
  | .sShiftPrg a v => Sys2Proof.Machine.execSShiftPrg a v s
  | .eBankSelect a v => Sys2Proof.Machine.execEBankSelect a v s
  | .eBankData a v => Sys2Proof.Machine.execEBankData a v s
  | .eMirror a v => Sys2Proof.Machine.execEMirror a v s
  | .eRamProtect a v => Sys2Proof.Machine.execERamProtect a v s
  | .eIrqLatch a v => Sys2Proof.Machine.execEIrqLatch a v s
  | .eIrqReload a v => Sys2Proof.Machine.execEIrqReload a v s
  | .eIrqDisable a v => Sys2Proof.Machine.execEIrqDisable a v s
  | .eIrqEnable a v => Sys2Proof.Machine.execEIrqEnable a v s
  | .cPrg a v => Sys2Proof.Machine.execCPrg a v s
  | .cMirror a v => Sys2Proof.Machine.execCMirror a v s
  | .cChrLo a v => Sys2Proof.Machine.execCChrLo a v s
  | .cChrHi a v => Sys2Proof.Machine.execCChrHi a v s
  | .cIrqLatch a v => Sys2Proof.Machine.execCIrqLatch a v s
  | .cIrqControl a v => Sys2Proof.Machine.execCIrqControl a v s
  | .cIrqAck a v => Sys2Proof.Machine.execCIrqAck a v s
  | .cIgnoredA a v => Sys2Proof.Machine.execCIgnoredA a v s
  | .cIgnoredD a v => Sys2Proof.Machine.execCIgnoredD a v s
  | .cIgnoredE a v => Sys2Proof.Machine.execCIgnoredE a v s
  | .cIgnoredF3 a v => Sys2Proof.Machine.execCIgnoredF3 a v s

end Sys2Proof.Machine
end

