-- ==== Sys2Proof/Machine/Step.lean ====
section
/-! DEFINITION. One step: the next transaction of the host's stream is taken, decoded in the instance's profile and
performed (R65, R69). With no transaction waiting the block is idle and does nothing on its own (R3, R295).
Only this file and Decode.lean look at transaction words. -/

namespace Sys2Proof.Machine

/-- The next transaction of the stream is word `w`; `rest` follows it. The position advances by one (R41). -/
def perform (w : Word) (rest : List Word) (s : State) : Outcome :=
  match decode s.cfg.profile w with
  | .error reason => .refused (.illegalWord w reason)
  | .ok i => exec i (s.setFetch rest (s.position + 1))

/-- One step of the machine. -/
def step (s : State) : Host.Outcome State Fault Refusal :=
  match s.stream with
  | [] => .next s
  | w :: rest => perform w rest s

/-- The word of the table is a register write, whose reading depends on the profile (R90). -/
def isRegisterWrite (w : Nat) : Bool := 0x10800000 ≤ w && w ≤ 0x10FFFFFF

/-- The host issues this transaction next (log entries 5 and 6): it goes to the head of the stream, and where its
reading depends on the profile the instance is given the profile `decodeTableWord` reads it in. -/
def State.withFetchWord (s : State) (nbits w : Nat) : State :=
  let w := w % 2 ^ nbits
  let s := s.setFetch (BitVec.ofNat 32 w :: s.stream) s.position
  if isRegisterWrite w then { s with cfg := { s.cfg with profile := tableProfile w } } else s

end Sys2Proof.Machine
end

