-- ==== Sys2Proof/Machine/Assembler.lean ====
section
/-! DEFINITION. The assembler's side of the encoding: the pseudo-operations with their expansions (R93), the source's call
text of a transaction (R92), and the performance of a sequence of transactions in order (R69). -/

namespace Sys2Proof

/-- The pseudo-operations of R93. -/
inductive PseudoOp where
  | serialReset (a : Addr)
  | serialLoad (a : Addr) (v : BitVec 5)
  | a12Edge
  | a12Edges (k : Nat)
  deriving DecidableEq, Repr

/-- One low and one high access of bit 12 (R93). -/
def a12EdgeTransactions : List Instr := [.ppuRead 0x0000, .ppuRead 0x1000]

/-- A pseudo-operation's exact expansion (R93). -/
def PseudoOp.expand : PseudoOp → List Instr
  | .serialReset a => [.cpuWrite a 0x80]
  | .serialLoad a v =>
    [.cpuWrite a (Machine.bitByte (v.getLsbD 0)), .cpuWrite a (Machine.bitByte (v.getLsbD 1)),
     .cpuWrite a (Machine.bitByte (v.getLsbD 2)), .cpuWrite a (Machine.bitByte (v.getLsbD 3)),
     .cpuWrite a (Machine.bitByte (v.getLsbD 4))]
  | .a12Edge => a12EdgeTransactions
  | .a12Edges k => (List.replicate k a12EdgeTransactions).flatten

/-- The digit of a value below 16. -/
def hexDigit (n : Nat) : Char := if n < 10 then Char.ofNat (48 + n) else Char.ofNat (55 + n)

/-- An address as `0x` and four digits (R92). -/
def addrText (a : Addr) : String :=
  "0x" ++ String.ofList [hexDigit (a.toNat / 4096 % 16), hexDigit (a.toNat / 256 % 16), hexDigit (a.toNat / 16 % 16),
    hexDigit (a.toNat % 16)]

/-- A byte as `0x` and two digits (R92). -/
def byteText (b : Byte) : String := "0x" ++ String.ofList [hexDigit (b.toNat / 16 % 16), hexDigit (b.toNat % 16)]

/-- A call of two operands in the source's notation (R92). -/
def callText (name : String) (a : Addr) (v : Byte) : String := name ++ "(" ++ addrText a ++ ", " ++ byteText v ++ ")"

/-- A transaction in the source's call notation (R92); a second-level row is its `cpu_write`. -/
def Instr.text : Instr → String
  | .cpuRead a     => "cpu_read(" ++ addrText a ++ ")"
  | .cpuWrite a v  => callText "cpu_write" a v
  | .ppuRead a     => "ppu_read(" ++ addrText a ++ ")"
  | .ppuWrite a v  => callText "ppu_write" a v
  | .reset         => "reset()"
  | .scanline      => "scanline()"
  | .clock n       => "clock(" ++ Nat.repr n.toNat ++ ")"
  | .irqState      => "irq_state()"
  | .irqClear      => "irq_clear()"
  | .getMirror     => "get_mirror_mode()"
  | .saveRead o    => "save_read(" ++ addrText o ++ ")"
  | .saveWrite o v => callText "save_write" o v
  | .dirtyRead     => "dirty_read()"
  | .dirtyClear    => "dirty_clear()"
  | .sReset a v | .sShiftControl a v | .sShiftChr0 a v | .sShiftChr1 a v | .sShiftPrg a v
  | .eBankSelect a v | .eBankData a v | .eMirror a v | .eRamProtect a v | .eIrqLatch a v | .eIrqReload a v
  | .eIrqDisable a v | .eIrqEnable a v
  | .cPrg a v | .cMirror a v | .cChrLo a v | .cChrHi a v | .cIrqLatch a v | .cIrqControl a v | .cIrqAck a v
  | .cIgnoredA a v | .cIgnoredD a v | .cIgnoredE a v | .cIgnoredF3 a v => callText "cpu_write" a v

namespace Machine

/-- A response as a number: a byte in hexadecimal, a bit or a mirroring code in decimal (R85, R92). -/
def Response.text : Response → String
  | .none => ""
  | .byte b => byteText b
  | .bit b => if b then "1" else "0"
  | .mirror code => Nat.repr code.toNat

/-- A line of a test program: the transaction, and `-> v` where a response is expected (R92). -/
def lineText (i : Instr) (expected : Response) : String :=
  match expected with
  | .none => i.text
  | r => i.text ++ " -> " ++ r.text

/-- Perform transactions in order, stopping at the first that stops (R69). -/
def execAll : List Instr → State → Outcome
  | [], s => .next s
  | i :: is, s => match exec i s with
    | .next t => execAll is t
    | .fault r => .fault r
    | .refused r => .refused r

end Machine
end Sys2Proof
end

