-- ==== Sys2Proof/Machine/Construct.lean ====
section
/-! DEFINITION. Construction of an instance (40_interface_registry R100 to R107): the registry lookup, the profile checks
W1 to W7 of R105, the size checks, CHR-RAM substitution, the allocation draw, and the initial state.
Construction happens once, before any transaction (R100), so it is a function beside `step`, not a step. -/

namespace Sys2Proof

/-! ## The profile checks -/

/-- The base and size of an unchecked window. -/
def RawWindow.span (w : RawWindow) : Nat × Nat := (w.base, w.size)

/-- W1: four PRG layouts, each tiling 0x8000..0xFFFF (R105). -/
def RawProfile.w1 (r : RawProfile) : Bool :=
  r.prgLayout.length == 4 && r.prgLayout.all (fun ws => prgTiles (ws.map RawWindow.span))

/-- W2: two CHR layouts, each tiling 0x0000..0x1FFF (R105). -/
def RawProfile.w2 (r : RawProfile) : Bool :=
  r.chrLayout.length == 2 && r.chrLayout.all (fun ws => chrTiles (ws.map RawWindow.span))

/-- A PRG policy names `prg_bank[0..3]` and a shift in 0..7 (R105 W3). -/
def RawPolicy.namesPrg : RawPolicy → Bool
  | .variable (.prg i) shr => decide (i < 4) && decide (shr < 8)
  | .variable (.chr _) _ => false
  | .fixedFirst | .fixedLast => true

/-- A CHR policy names `chr_bank[0..7]` and a shift in 0..7 (R105 W3). -/
def RawPolicy.namesChr : RawPolicy → Bool
  | .variable (.chr j) shr => decide (j < 8) && decide (shr < 8)
  | .variable (.prg _) _ => false
  | .fixedFirst | .fixedLast => true

/-- W3 (R105). -/
def RawProfile.w3 (r : RawProfile) : Bool :=
  r.prgLayout.all (fun ws => ws.all (fun w => w.policy.namesPrg)) &&
  r.chrLayout.all (fun ws => ws.all (fun w => w.policy.namesChr))

/-- W4 (R105). -/
def RawProfile.w4 (r : RawProfile) : Bool := r.edgeBit ≤ 12

/-- W5 (R105). -/
def RawProfile.w5 (r : RawProfile) : Bool := r.fixedBankMode ≤ 3

/-- Every address that agrees with the known bits has a target (R105 W6). -/
def RawTargetMap.covers (known : List (Fin 16 × Bool)) : RawTargetMap → Bool
  | .undefined => false
  | .target _ => true
  | .split bit zero one =>
    match known.lookup bit with
    | some b => if b then one.covers known else zero.covers known
    | none => zero.covers ((bit, false) :: known) && one.covers ((bit, true) :: known)

/-- The target of an address, where the author's map gives one. -/
def RawTargetMap.lookup (a : Addr) : RawTargetMap → Option Target
  | .undefined => none
  | .target t => some t
  | .split bit zero one => if a.getLsbD bit then one.lookup a else zero.lookup a

/-- W6: a serial profile has a target for every address in 0x8000..0xFFFF, where bit 15 is 1 (R105). -/
def RawProfile.w6 (r : RawProfile) : Bool := !r.serial || r.serialTarget.covers [(15, true)]

/-- W7: a mode for each of the four field values (R105). -/
def RawProfile.w7 (r : RawProfile) : Bool := r.mirrorDecode.length == 4

/-- The first check the profile fails, in the order R105 lists them. A table with IRQ actions fails none of them where
`IRQ_FAMILY = None`: the decode leaves them out (`ProfileData.produces`, log entry 20). -/
def RawProfile.failedCheck (r : RawProfile) : Option ProfileCheck :=
  if !r.w1 then some .w1
  else if !r.w2 then some .w2
  else if !r.w3 then some .w3
  else if !r.w4 then some .w4
  else if !r.w5 then some .w5
  else if !r.w6 then some .w6
  else if !r.w7 then some .w7
  else none

/-! ## A checked profile as profile data -/

/-- A checked window over a register file of `n` registers. -/
def RawWindow.toWindow (n : Nat) (w : RawWindow) : Window (n + 1) where
  base := w.base
  size := w.size
  policy := match w.policy with
    | .fixedFirst => .fixedFirst
    | .fixedLast => .fixedLast
    | .variable (.prg i) shr => .variable (Fin.ofNat (n + 1) i) (Fin.ofNat 8 shr)
    | .variable (.chr j) shr => .variable (Fin.ofNat (n + 1) j) (Fin.ofNat 8 shr)

/-- A target map as a total one; the addresses W6 leaves out are below 0x8000 and are never looked up. -/
def RawTargetMap.toMap : RawTargetMap → TargetMap
  | .undefined => .target .t0
  | .target t => .target t
  | .split bit zero one => .split bit zero.toMap one.toMap

/-- The profile data of a profile that passes W1 to W7; every field is carried over as it stands. -/
def RawProfile.toData (r : RawProfile) : ProfileData where
  prgLayout := Vector.ofFn (fun i => (r.prgLayout.getD i []).map (RawWindow.toWindow 3))
  chrLayout := Vector.ofFn (fun i => (r.chrLayout.getD i []).map (RawWindow.toWindow 7))
  mirrorSource := r.mirrorSource
  mirrorDecode := Vector.ofFn (fun i => r.mirrorDecode.getD i .horizontal)
  serial := r.serial
  serialTarget := r.serialTarget.toMap
  commits := r.commits
  fixedBankMode := BitVec.ofNat 2 r.fixedBankMode
  writeRows := r.writeRows
  irqFamily := r.irqFamily
  edgeBit := Fin.ofNat 13 r.edgeBit
  counterDir := r.counterDir
  wrapWhenDisabled := r.wrapWhenDisabled
  resetValues := r.resetValues

/-- The profile of a registry entry, or the check it fails (R105). The three reference profiles pass them all
(`Laws/Config.lean`, `tiled_S`, `tiled_E`, `tiled_C`). -/
def RegistryEntry.profile : RegistryEntry → Except ProfileCheck Profile
  | .S => .ok .S
  | .E => .ok .E
  | .C => .ok .C
  | .variant r => match r.failedCheck with
    | some c => .error c
    | none => .ok (.other r.toData)

namespace Machine

/-! ## Construction -/

/-- What construction ends in (R100, R105, R281): one instance, one load error, or a profile that is refused. -/
inductive LoadResult where
  | inserted (s : State)
  | loadError (e : LoadError)
  | profileRefused (c : ProfileCheck)
  deriving DecidableEq, Repr

/-- CHR-RAM of `n` bytes with the drawn contents; `S_chr` is above zero (R6), so none of zero bytes (R103). -/
def chrRam (n : Nat) (d : Draws) : Except LoadError (Bool × Nat × Memory) :=
  if n = 0 then .error (.invalidSize .chr) else .ok (true, n, Memory.ofCells n d.initChrRam)

/-- CHR storage after substitution: whether it is RAM, its size and its contents (R103). That a default size of zero is
`InvalidSize` too is log entry 10. -/
def chrStorage (env : Environment) (c : Cartridge) (d : Draws) : Except LoadError (Bool × Nat × Memory) :=
  match c.chr with
  | .rom bytes =>
    if bytes.size = 0 then .error (.invalidSize .chr)
    else .ok (false, bytes.size, Memory.ofCells bytes.size bytes.cells)
  | .ram n => chrRam n d
  | .none => chrRam env.chrRamDefaultSize d

/-- The initial state of an instance: every register field at its reset value, `dirty` and the diagnostic bit 0, the
memories as the loader and the draws give them (R106, R303). The host's stream is empty. -/
def initialState (cfg : Config) (chrMem prgRam : Memory) : State :=
  let r := cfg.profile.data.resetValues
  { cfg
    prgBank := r.prgBank, chrBank := r.chrBank, sel := 0
    prgMode := r.prgMode, chrMode := r.chrMode, mirrorField := resetMirrorField cfg
    ramEnable := r.ramEnable, ramProtect := r.ramProtect, dirty := false
    shift := 0, count := 0
    irqLatch := 0, irqCounter := 0, irqEnable := false, irqPending := false, irqReload := false
    countMode := false, edgePrev := false, diagSizeMismatch := false
    chrMem, prgRam
    stream := [], position := 0, response := .none, diag := none }

/-- The size checks, the allocation draw and the instance, once the profile is known (R102 to R106). -/
def constructWith (env : Environment) (p : Profile) (c : Cartridge) (d : Draws) : LoadResult :=
  if c.prgRom.size = 0 then .loadError (.invalidSize .prg)
  else match chrStorage env c d with
    | .error e => .loadError e
    | .ok (chrIsRam, chrSize, chrMem) =>
      if d.allocationFails then .loadError .allocationFailure
      else .inserted (initialState
        { mapperNumber := c.mapperNumber, profile := p
          prgRom := Memory.ofCells c.prgRom.size c.prgRom.cells, prgSize := c.prgRom.size
          chrIsRam, chrSize, ramSize := c.ramSize, hasBattery := c.hasBattery, headerMirror := c.headerMirror
          cpuWindowLo := env.cpuWindowLo, chrRamDefaultSize := env.chrRamDefaultSize }
        chrMem (Memory.ofCells c.ramSize d.initPrgRam))

/-- Construction (R100) from the configuration record of R6, its checks in the order of R107; the profile checks come with the lookup (log entry 8). -/
def construct (registry : Nat → Option RegistryEntry) (env : Environment) (c : Cartridge) (d : Draws) : LoadResult :=
  match registry c.mapperNumber with
  | none => .loadError (.unsupportedMapper c.mapperNumber)
  | some entry => match entry.profile with
    | .error check => .profileRefused check
    | .ok p => constructWith env p c d

end Machine
end Sys2Proof
end

