-- ==== Sys2Proof/Safety.lean ====
section
/-! DEFINITION. What counts as a safe run: the invariant of a constructed instance, and a stream of legal words.
From a state with the invariant every legal transaction completes (R280), and the invariant is kept. -/

namespace Sys2Proof.Machine

/-- A configuration construction can give: non-empty stores (R102, R103) and a profile that passes R105. -/
structure ConfigWf (cfg : Config) : Prop where
  prgSize_pos : 0 < cfg.prgSize
  chrSize_pos : 0 < cfg.chrSize
  tiled : cfg.profile.data.tiled = true
  prgRom_wf : cfg.prgRom.wf
  prgRom_within : cfg.prgRom.within cfg.prgSize

/-- The IRQ fields (R31, R32) hold their reset values: the engine's `Idle` (R170), in scanline mode (R301). `edge_prev`
(R34) is not among them: R172 writes it in every family. -/
structure IrqIdle (s : State) : Prop where
  irqLatch : s.irqLatch = 0
  irqCounter : s.irqCounter = 0
  irqEnable : s.irqEnable = false
  irqPending : s.irqPending = false
  irqReload : s.irqReload = false
  countMode : s.countMode = false

/-- The invariant of a constructed instance. -/
structure InstanceInv (s : State) : Prop where
  cfg_wf : ConfigWf s.cfg
  /-- "the values 5, 6 and 7 never occur" (R30). -/
  count_le : s.count.toNat ≤ 4
  /-- "every reachable state satisfies irq_pending = 1 => irq_enable = 1" (R171). -/
  pending_enabled : s.irqPending = true → s.irqEnable = true
  /-- With no engine "the IRQ fields keep their reset values" (R189). -/
  quiet : s.cfg.profile.data.irqFamily = .none → IrqIdle s
  /-- The stores are in canonical form and keep their sizes (R40). -/
  chrMem_wf : s.chrMem.wf
  chrMem_within : s.chrMem.within s.cfg.chrSize
  prgRam_wf : s.prgRam.wf
  prgRam_within : s.prgRam.within s.cfg.ramSize

/-- The word is a transaction in the instance's profile (R86). -/
def legalWord (p : Profile) (w : Word) : Bool := (decode p w).toOption.isSome

/-- Every word the host has queued is a transaction. -/
def legalStream (s : State) : Prop := ∀ w ∈ s.stream, legalWord s.cfg.profile w = true

end Sys2Proof.Machine
end

