-- ==== Sys2Proof/Certificates/Slice0/Obligations.lean ====
section
/-! DEFINITION. The statements for the provers. Each docstring names the rules of spec/ it formalises.
A result is stated as an equation `exec i s = .next t` whose `t` is written as an update of `s`, so that the statement is
the transaction's completion and its frame at once: every field not written in `t` is unchanged. Where a store is
written, the statement says what every byte of it reads as afterwards. -/

open Sys2Proof Sys2Proof.Machine

/-! ## Encoding -/

/-- Decoding the word of a transaction gives the transaction back, in every profile that reads it (R80 to R91). -/
def Obligations.EncodeThenDecodeGivesTheTransaction : Prop :=
  ∀ (p : Profile) (i : Instr), i.wf = true → i.readIn p = true → decode p (encode i) = .ok i

/-- A word has at most one reading in a profile and no bit of it is dropped: a decoded transaction is well-formed,
belongs to the profile, and encodes to the very word (R80 to R91). -/
def Obligations.DecodedTransactionEncodesToItsWord : Prop :=
  ∀ (p : Profile) (w : Word) (i : Instr), decode p w = .ok i → encode i = w ∧ i.wf = true ∧ i.readIn p = true

/-- R86 (a): the kind is 0xE or 0xF. -/
def kindReserved (w : Word) : Prop := 0xE ≤ w.toNat / 2 ^ 28

/-- R86 (b), R83: `rsv` is not zero. -/
def rsvNonZero (w : Word) : Prop := w.toNat / 2 ^ 24 % 16 ≠ 0

/-- R86 (c), R82: a field whose cell in R81's table says "no" is not zero. -/
def unusedNonZero (w : Word) : Prop :=
  (w.toNat / 2 ^ 28 ∈ [0x0, 0x2, 0x6, 0xA] ∧ w.toNat % 2 ^ 8 ≠ 0) ∨
  (w.toNat / 2 ^ 28 ∈ [0x4, 0x5, 0x7, 0x8, 0x9, 0xC, 0xD] ∧ w.toNat % 2 ^ 24 ≠ 0)

/-- R86: a word is refused exactly when its kind is 0xE or 0xF, or `rsv` is not zero (R83), or a field its kind does not
use is not zero (R82); the refusal names the word, and the reason where only one applies. -/
def Obligations.ExactlyTheIllegalWordsAreRefused : Prop :=
  ∀ (s : State) (w : Word) (rest : List Word), s.stream = w :: rest →
    ((∃ reason, step s = .refused (.illegalWord w reason)) ↔ kindReserved w ∨ rsvNonZero w ∨ unusedNonZero w) ∧
    (kindReserved w → ¬ rsvNonZero w → ¬ unusedNonZero w → step s = .refused (.illegalWord w .reservedKind)) ∧
    (¬ kindReserved w → rsvNonZero w → ¬ unusedNonZero w → step s = .refused (.illegalWord w .reservedField)) ∧
    (¬ kindReserved w → ¬ rsvNonZero w → unusedNonZero w → step s = .refused (.illegalWord w .unusedField))

/-- The second-level rows of the opcode table: profile, word mask, word match, the transaction. -/
def secondLevelRows : List (Profile × Word × Word × (Addr → Byte → Instr)) :=
  [(.S, 0xFF800080, 0x10800080, .sReset), (.S, 0xFFE00080, 0x10800000, .sShiftControl),
   (.S, 0xFFE00080, 0x10A00000, .sShiftChr0), (.S, 0xFFE00080, 0x10C00000, .sShiftChr1),
   (.S, 0xFFE00080, 0x10E00000, .sShiftPrg)] ++
  [(.E, 0xFFE00100, 0x10800000, .eBankSelect), (.E, 0xFFE00100, 0x10800100, .eBankData),
   (.E, 0xFFE00100, 0x10A00000, .eMirror), (.E, 0xFFE00100, 0x10A00100, .eRamProtect),
   (.E, 0xFFE00100, 0x10C00000, .eIrqLatch), (.E, 0xFFE00100, 0x10C00100, .eIrqReload),
   (.E, 0xFFE00100, 0x10E00000, .eIrqDisable), (.E, 0xFFE00100, 0x10E00100, .eIrqEnable)] ++
  [(.C, 0xFFF00000, 0x10800000, .cPrg), (.C, 0xFFF00000, 0x10900000, .cMirror),
   (.C, 0xFFF00000, 0x10B00000, .cChrLo), (.C, 0xFFF00000, 0x10C00000, .cChrHi),
   (.C, 0xFFF00300, 0x10F00000, .cIrqLatch), (.C, 0xFFF00300, 0x10F00100, .cIrqControl),
   (.C, 0xFFF00300, 0x10F00200, .cIrqAck), (.C, 0xFFF00000, 0x10A00000, .cIgnoredA),
   (.C, 0xFFF00000, 0x10D00000, .cIgnoredD), (.C, 0xFFF00000, 0x10E00000, .cIgnoredE),
   (.C, 0xFFF00300, 0x10F00300, .cIgnoredF3)]

/-- The rows of profile `p` have the encodings the spec gives them: a word that a row's mask and match select decodes, in
that profile, to that row, with the word's own address and data byte. -/
def rowsDecode (p : Profile) : Prop :=
  ∀ r ∈ secondLevelRows, r.1 = p → ∀ w : Word, w &&& r.2.1 = r.2.2.1 →
    decode p w = .ok (r.2.2.2 (w.extractLsb' 8 16) (w.extractLsb' 0 8))

/-- The masks and matches of the opcode table's second-level rows, and of the Encoding lines of R243 to R265, select their
rows in all three reference profiles, and the row so selected is well-formed. -/
def Obligations.OpcodeTableMasksSelectTheirRows : Prop :=
  (∀ p, rowsDecode p) ∧
  ∀ r ∈ secondLevelRows, ∀ w : Word, w &&& r.2.1 = r.2.2.1 →
    (r.2.2.2 (w.extractLsb' 8 16) (w.extractLsb' 0 8)).wf = true ∧
    (r.2.2.2 (w.extractLsb' 8 16) (w.extractLsb' 0 8)).readIn r.1 = true

/-- "Within one profile the second-level rows are disjoint: no word matches two of them" (the spec derives this in R90),
and in each reference profile every `cpu_write` to 0x8000..0xFFFF matches one. -/
def Obligations.EveryRegisterWriteMatchesOneRow : Prop :=
  ∀ p ∈ [Profile.S, Profile.E, Profile.C], ∀ w : Word,
    ((secondLevelRows.filter (fun r => r.1 == p && w &&& r.2.1 == r.2.2.1)).length =
      if 0x10800000 ≤ w.toNat ∧ w.toNat ≤ 0x10FFFFFF then 1 else 0)

/-- Some words the spec writes out decode to what they stand for (R80 to R90). -/
def Obligations.WrittenOutWordsDecode : Prop :=
  decode .S 0x10E123FF = .ok (.sReset 0xE123 0xFF) ∧ decode .S 0x10E00001 = .ok (.sShiftPrg 0xE000 0x01) ∧
  decode .E 0x10BFFFC0 = .ok (.eRamProtect 0xBFFF 0xC0) ∧ decode .C 0x10F7FE10 = .ok (.cIrqAck 0xF7FE 0x10) ∧
  decode .C 0x10402012 = .ok (.cpuWrite 0x4020 0x12) ∧ decode .E 0x3004005A = .ok (.ppuWrite 0x0400 0x5A) ∧
  decode .S 0x60123400 = .ok (.clock 0x1234) ∧ decode .S 0xA0000100 = .ok (.saveRead 0x0001)

/-- In every profile and state a second-level row has the effect of the `cpu_write` whose word it shares: in its own
profile the row's rule (R243 to R265) agrees with the dispatch of R109 through the profile's table. What such a row does
in any other profile, where R90 says it is ignored, is the model's reading (DEDUCED, log entry 11): the dispatch. -/
def Obligations.SecondLevelRowIsItsCpuWrite : Prop :=
  ∀ (i : Instr) (a : Addr) (v : Byte) (s : State),
    i.wf = true → encode i = encode (.cpuWrite a v) → exec i s = exec (.cpuWrite a v) s

/-! ## Steps, the invariant, completion -/

/-- A step performs the transaction its next word decodes to, the word taken off the stream and the position advanced
by one (R41, R65); with no word waiting the block does nothing (R3). -/
def Obligations.StepPerformsTheDecodedTransaction : Prop :=
  ∀ s : State, (s.stream = [] → step s = .next s) ∧
    ∀ (w : Word) (rest : List Word) (i : Instr), s.stream = w :: rest → decode s.cfg.profile w = .ok i →
      step s = exec i { s with stream := rest, position := s.position + 1 }

/-- The reset state has the invariant of a constructed instance (its cartridge is the model's choice, log entry 2). -/
def Obligations.ResetStateHasTheInvariant : Prop := InstanceInv State.reset

/-- Every step keeps the invariant: the serial count at most 4 (R30), a pending interrupt enabled (R171), no interrupt
without an engine and its fields at their reset values (R189), the stores canonical and of their size (R40), the configuration well-formed (R6). -/
def Obligations.EveryStepKeepsTheInvariant : Prop :=
  ∀ s t : State, InstanceInv s → step s = .next t → InstanceInv t

/-- No step changes the configuration (R6), and a step takes exactly one word and advances the position by one (R41). -/
def Obligations.NoStepChangesTheConfiguration : Prop :=
  ∀ s t : State, step s = .next t →
    t.cfg = s.cfg ∧ (s.stream = [] → t = s) ∧
    ∀ (w : Word) (rest : List Word), s.stream = w :: rest → t.stream = rest ∧ t.position = s.position + 1

/-- R280: "Every transaction on a constructed instance completes with a defined response and a defined next state". -/
def Obligations.EveryTransactionCompletes : Prop :=
  ∀ (s : State) (i : Instr), InstanceInv s → ∃ t, exec i s = .next t

/-- From a constructed instance, a run over a stream of legal words never stops, for any number of steps (R280). -/
def Obligations.LegalRunsNeverStop : Prop :=
  ∀ (s : State) (k : Nat), InstanceInv s → legalStream s → ∃ t, Sys2Proof.core.run k s = .next t ∧ InstanceInv t ∧ legalStream t

/-! ## Construction -/

/-- Every instance construction gives has the invariant, `dirty` and the diagnostic bit 0, and is a fixed point of
`reset()`: its registers are at their reset values (R106; the spec derives the fixed point in R303). -/
def Obligations.ConstructedInstanceIsAtReset : Prop :=
  ∀ (registry : Nat → Option RegistryEntry) (env : Environment) (c : Cartridge) (d : Draws) (s : State),
    construct registry env c d = .inserted s →
    InstanceInv s ∧ s.dirty = false ∧ s.diagSizeMismatch = false ∧ exec .reset s = .next s

/-- The declared CHR has zero length (R103). -/
def chrIsEmpty (c : ChrDeclared) : Prop :=
  match c with
  | .rom bytes => bytes.size = 0
  | .ram n => n = 0
  | .none => False

/-- R101 to R104 in the order of R107: an unknown number is `UnsupportedMapper`; then a zero-size PRG-ROM and then an
empty CHR declaration are `InvalidSize`; then the draw decides between `AllocationFailure` and an instance. Its
configuration is the record of R6, field for field as the loader, the registry and the environment gave it; its CHR is the
declared ROM, the declared RAM, or created RAM of `CHR_RAM_DEFAULT_SIZE`, 8192 in the spec. Byte arrays and draws become
stores by `Memory.ofCells` (`StoresAreCanonical` says what those read as); `ZeroDefaultChrSizeIsInvalidSize` has the one
default left out here. -/
def Obligations.ConstructionEndsAsItsChecksSay : Prop :=
  ({} : Environment) = ⟨0x6000, 8192⟩ ∧
  ∀ (registry : Nat → Option RegistryEntry) (env : Environment) (c : Cartridge) (d : Draws),
    (registry c.mapperNumber = none → construct registry env c d = .loadError (.unsupportedMapper c.mapperNumber)) ∧
    ∀ (entry : RegistryEntry) (p : Profile), registry c.mapperNumber = some entry → entry.profile = .ok p →
      (c.prgRom.size = 0 → construct registry env c d = .loadError (.invalidSize .prg)) ∧
      (c.prgRom.size ≠ 0 → chrIsEmpty c.chr → construct registry env c d = .loadError (.invalidSize .chr)) ∧
      (c.prgRom.size ≠ 0 → ¬ chrIsEmpty c.chr → (c.chr = .none → env.chrRamDefaultSize ≠ 0) →
        (d.allocationFails = true → construct registry env c d = .loadError .allocationFailure) ∧
        (d.allocationFails = false →
          ∃ s, construct registry env c d = .inserted s ∧
            s.cfg = {
              mapperNumber := c.mapperNumber, profile := p
              prgRom := Memory.ofCells c.prgRom.size c.prgRom.cells, prgSize := c.prgRom.size
              chrIsRam := s.cfg.chrIsRam, chrSize := s.cfg.chrSize
              ramSize := c.ramSize, hasBattery := c.hasBattery, headerMirror := c.headerMirror
              cpuWindowLo := env.cpuWindowLo, chrRamDefaultSize := env.chrRamDefaultSize } ∧
            (∀ bytes, c.chr = .rom bytes → s.cfg.chrIsRam = false ∧ s.cfg.chrSize = bytes.size ∧
              s.chrMem = Memory.ofCells bytes.size bytes.cells) ∧
            (∀ n, c.chr = .ram n → s.cfg.chrIsRam = true ∧ s.cfg.chrSize = n ∧
              s.chrMem = Memory.ofCells n d.initChrRam) ∧
            (c.chr = .none → s.cfg.chrIsRam = true ∧ s.cfg.chrSize = env.chrRamDefaultSize ∧
              s.chrMem = Memory.ofCells env.chrRamDefaultSize d.initChrRam) ∧
            s.prgRam = Memory.ofCells c.ramSize d.initPrgRam))

/-- The model's reading (DEDUCED, log entry 10) of a `CHR_RAM_DEFAULT_SIZE` of zero, a value the spec does not give: no
CHR storage is empty (R6), so where the cartridge declares no CHR the load ends in `InvalidSize`. -/
def Obligations.ZeroDefaultChrSizeIsInvalidSize : Prop :=
  ∀ (registry : Nat → Option RegistryEntry) (env : Environment) (c : Cartridge) (d : Draws) (entry : RegistryEntry)
    (p : Profile), registry c.mapperNumber = some entry → entry.profile = .ok p → c.prgRom.size ≠ 0 →
    c.chr = .none → env.chrRamDefaultSize = 0 → construct registry env c d = .loadError (.invalidSize .chr)

/-- R106: any RAM contents can be drawn: every canonical store of the cartridge's sizes is the initial PRG-RAM, and
where the cartridge has CHR-RAM the initial CHR-RAM, of some construction. -/
def Obligations.AnyRamContentsCanBeDrawn : Prop :=
  ∀ (registry : Nat → Option RegistryEntry) (env : Environment) (c : Cartridge) (d : Draws) (s : State)
    (prgRam chrRam : Memory), construct registry env c d = .inserted s →
    prgRam.wf → prgRam.within s.cfg.ramSize → chrRam.wf → chrRam.within s.cfg.chrSize →
    ∃ t, construct registry env c { d with initPrgRam := prgRam, initChrRam := chrRam } = .inserted t ∧
      t.cfg = s.cfg ∧ t.prgRam = prgRam ∧ (s.cfg.chrIsRam = true → t.chrMem = chrRam)

/-- The windows of one layout have one of the sizes, bases that are multiples of their sizes, and together cover the
addresses `lo .. hi` exactly once (R105 W1, W2). -/
def coversOnce (sizes : List Nat) (lo hi : Nat) (layout : List RawWindow) : Prop :=
  (∀ w ∈ layout, w.size ∈ sizes ∧ w.base % w.size = 0) ∧
  ∀ a, lo ≤ a → a ≤ hi → (layout.filter (fun w => decide (w.base ≤ a ∧ a < w.base + w.size))).length = 1

/-- Every variable policy of the layout names a register of the file below `n`, and a shift in 0..7 (R105 W3). -/
def namesRegisters (file : Nat → BankReg) (n : Nat) (layout : List RawWindow) : Prop :=
  ∀ w ∈ layout, ∀ reg shr, w.policy = .variable reg shr → (∃ i, i < n ∧ reg = file i) ∧ shr ≤ 7

/-- The named checks of R105 on a profile as its author writes it, each as the rule has it. -/
structure MeetsR105 (r : RawProfile) : Prop where
  w1 : r.prgLayout.length = 4 ∧ ∀ layout ∈ r.prgLayout, coversOnce [32768, 16384, 8192] 0x8000 0xFFFF layout
  w2 : r.chrLayout.length = 2 ∧ ∀ layout ∈ r.chrLayout, coversOnce [8192, 4096, 2048, 1024] 0x0000 0x1FFF layout
  w3 : (∀ layout ∈ r.prgLayout, namesRegisters .prg 4 layout) ∧ ∀ layout ∈ r.chrLayout, namesRegisters .chr 8 layout
  w4 : r.edgeBit ≤ 12
  w5 : r.fixedBankMode ≤ 3
  w6 : r.serial = true → ∀ a : Addr, 0x8000 ≤ a.toNat → ∃ t, r.serialTarget.lookup a = some t
  w7 : r.mirrorDecode.length = 4

/-- R105: a profile that fails any of W1 to W7 is refused, and no construction gives an instance of it. The three
reference profiles pass. -/
def Obligations.IllFormedProfilesAreRefused : Prop :=
  (∀ e ∈ [RegistryEntry.S, RegistryEntry.E, RegistryEntry.C], ∃ p, e.profile = .ok p ∧ p.data.tiled = true) ∧
  ∀ r : RawProfile, ¬ MeetsR105 r →
    (∃ check, (RegistryEntry.variant r).profile = .error check) ∧
    ∀ (registry : Nat → Option RegistryEntry) (env : Environment) (c : Cartridge) (d : Draws) (s : State),
      registry c.mapperNumber = some (.variant r) → construct registry env c d ≠ .inserted s

/-- Every window of the layout lies inside the space `lo .. hi`: what the model reads W1 and W2 to ask beyond their
words (DEDUCED, log entry 18). -/
def windowsInside (lo hi : Nat) (layout : List RawWindow) : Prop :=
  ∀ w ∈ layout, lo ≤ w.base ∧ w.base + w.size ≤ hi + 1

/-- A window of a checked profile as its author writes it. -/
def Sys2Proof.Window.toRaw {n : Nat} (file : Nat → BankReg) (w : Window n) : RawWindow where
  base := w.base
  size := w.size
  policy := match w.policy with
    | .fixedFirst => .fixedFirst
    | .fixedLast => .fixedLast
    | .variable r shr => .variable (file r) shr

/-- R105: a profile that passes W1 to W7, no window of it outside its space (log entry 18), is accepted, and the profile of
the instance has the author's fields, each as it was written (R6). -/
def Obligations.WellFormedProfilesAreAcceptedAsWritten : Prop :=
  ∀ r : RawProfile, MeetsR105 r →
    (∀ layout ∈ r.prgLayout, windowsInside 0x8000 0xFFFF layout) →
    (∀ layout ∈ r.chrLayout, windowsInside 0x0000 0x1FFF layout) →
    ∃ d : ProfileData, (RegistryEntry.variant r).profile = .ok (.other d) ∧
      d.prgLayout.toList.map (fun layout => layout.map (Window.toRaw .prg)) = r.prgLayout ∧
      d.chrLayout.toList.map (fun layout => layout.map (Window.toRaw .chr)) = r.chrLayout ∧
      d.mirrorSource = r.mirrorSource ∧ d.mirrorDecode.toList = r.mirrorDecode ∧
      d.serial = r.serial ∧
      (r.serial = true → ∀ a : Addr, 0x8000 ≤ a.toNat → r.serialTarget.lookup a = some (d.serialTarget.lookup a)) ∧
      d.commits = r.commits ∧ d.fixedBankMode.toNat = r.fixedBankMode ∧ d.writeRows = r.writeRows ∧
      d.irqFamily = r.irqFamily ∧ d.edgeBit.val = r.edgeBit ∧ d.counterDir = r.counterDir ∧
      d.wrapWhenDisabled = r.wrapWhenDisabled ∧ d.resetValues = r.resetValues

/-! ## The bank decoder -/

/-- Exactly one window of each layout of a well-formed profile answers each address of the space (R105 W1, W2, R127,
R128). -/
def Obligations.ExactlyOneWindowAnswersEachAddress : Prop :=
  ∀ d : ProfileData, d.tiled = true →
    (∀ (m : Fin 4) (a : Nat), 0x8000 ≤ a → a ≤ 0xFFFF →
      (d.prgLayout[m].filter (fun w => decide (w.base ≤ a ∧ a < w.base + w.size))).length = 1) ∧
    (∀ (m : Fin 2) (a : Nat), a ≤ 0x1FFF →
      (d.chrLayout[m].filter (fun w => decide (w.base ≤ a ∧ a < w.base + w.size))).length = 1)

/-- Every decode of an address of its space gives an offset inside the store (the spec derives this in R126). -/
def Obligations.DecodedOffsetsLieInTheStore : Prop :=
  ∀ (s : State) (a : Addr), ConfigWf s.cfg →
    (0x8000 ≤ a.toNat → ∃ o, prgOffset s a = some o ∧ o < s.cfg.prgSize) ∧
    (a.toNat ≤ 0x1FFF → ∃ o, chrOffset s a = some o ∧ o < s.cfg.chrSize)

/-- When the window size divides the store and the store holds a window, the offset is the source's
`(b mod (S/g))*g + local_offset` (the spec derives this in R131). -/
def Obligations.OffsetIsTheSourceFormula : Prop :=
  ∀ (n : Nat) (w : Window n) (regs : Vector Byte n) (size a : Nat),
    w.size ∣ size → w.size ≤ size → 0 < w.size → w.base ≤ a → a < w.base + w.size →
    w.offset regs size a = (w.raw regs size % (size / w.size)) * w.size + (a - w.base)

/-- The default mappings after reset, which the spec derives in R301 and R302: in every reference profile 0xC000..0xFFFF is the last 16 KiB bank,
whatever the state before; below it bank 0 of the profile's windows, and bank 0 of every CHR window. -/
def Obligations.ResetRestoresTheDefaultMapping : Prop :=
  ∀ s t : State, exec .reset s = .next t →
    (s.cfg.profile ∈ [Profile.S, Profile.E, Profile.C] → ∀ a : Addr, 0xC000 ≤ a.toNat →
      prgOffset t a =
        some (((max 1 (s.cfg.prgSize / 0x4000) - 1) * 0x4000 + (a.toNat - 0xC000)) % s.cfg.prgSize)) ∧
    (s.cfg.profile ∈ [Profile.S, Profile.C] → ∀ a : Addr, 0x8000 ≤ a.toNat → a.toNat ≤ 0xBFFF →
      prgOffset t a = some ((a.toNat - 0x8000) % s.cfg.prgSize)) ∧
    (s.cfg.profile = .E → ∀ a : Addr, 0x8000 ≤ a.toNat → a.toNat ≤ 0xBFFF →
      prgOffset t a = some (a.toNat % 0x2000 % s.cfg.prgSize)) ∧
    (s.cfg.profile = .S → ∀ a : Addr, a.toNat ≤ 0x1FFF → chrOffset t a = some (a.toNat % s.cfg.chrSize)) ∧
    (s.cfg.profile = .E → ∀ a : Addr, a.toNat ≤ 0x1FFF →
      chrOffset t a = some (a.toNat % (if a.toNat ≤ 0x0FFF then 0x800 else 0x400) % s.cfg.chrSize)) ∧
    (s.cfg.profile = .C → ∀ a : Addr, a.toNat ≤ 0x1FFF → chrOffset t a = some (a.toNat % 0x400 % s.cfg.chrSize))

/-- R129: in Profile E toggling `chr_mode` exchanges the two halves of the pattern-table space, each window keeping its
bank register (the assignment of registers to windows is the spec's own, D27). -/
def Obligations.ChrModeSwapsThePatternTableHalves : Prop :=
  ∀ (s : State) (a : Addr), s.cfg.profile = .E → a.toNat ≤ 0x1FFF →
    ∃ o, chrOffset { s with chrMode := false } a = some o ∧
      chrOffset { s with chrMode := true } (a ^^^ 0x1000) = some o

/-- R125: the byte a ROM or PRG-RAM read returns is a function of the configuration, the PRG banks and mode, the RAM
contents and its enable bit; no other field can be learned by a `cpu_read` (R23). -/
def Obligations.CpuReadSeesOnlyTheDecoderState : Prop :=
  ∀ (s s' t t' : State) (a : Addr), s'.cfg = s.cfg → s'.prgBank = s.prgBank → s'.prgMode = s.prgMode →
    s'.prgRam = s.prgRam → s'.ramEnable = s.ramEnable →
    exec (.cpuRead a) s = .next t → exec (.cpuRead a) s' = .next t' → t'.response = t.response

/-! ## Bus transactions -/

/-- R108 with R222: below `CPU_WINDOW_LO` (R6; 0x6000 in the spec) a `cpu_read` returns 0xFF and emits `InvalidAddress`; in
0x6000..0x7FFF it returns the PRG-RAM byte, or 0xFF when there is none or it is disabled; from 0x8000 it returns the PRG-ROM
byte at the decoded offset. No state is written but the diagnostic bit (R130). -/
def Obligations.CpuReadAnswersByRegion : Prop :=
  ∀ (s : State) (a : Addr),
    (encode (.cpuRead a)).toNat = 0x00000000 + a.toNat * 0x100 ∧
    (a.toNat < s.cfg.cpuWindowLo.toNat →
      exec (.cpuRead a) s = .next { s with response := .byte 0xFF, diag := some (.invalidAddress a) }) ∧
    (s.cfg.cpuWindowLo.toNat ≤ a.toNat → 0x6000 ≤ a.toNat → a.toNat ≤ 0x7FFF →
      exec (.cpuRead a) s = .next { s with
        response := .byte (if s.cfg.ramSize = 0 ∨ s.ramEnable = false then 0xFF
          else s.prgRam.read ((a.toNat - 0x6000) % s.cfg.ramSize))
        diag := none }) ∧
    (s.cfg.cpuWindowLo.toNat ≤ a.toNat → 0x8000 ≤ a.toNat → ConfigWf s.cfg →
      ∃ w ∈ s.cfg.profile.data.prgLayout[s.prgMode.toFin], w.base ≤ a.toNat ∧ a.toNat < w.base + w.size ∧
        ∃ wraps : Bool, (wraps = true ↔ bankCount s.cfg.prgSize w.size ≤ w.raw s.prgBank s.cfg.prgSize ∨
            s.cfg.prgSize ≤ w.bank s.prgBank s.cfg.prgSize * w.size + (a.toNat - w.base)) ∧
          exec (.cpuRead a) s = .next { s with
            diagSizeMismatch := s.diagSizeMismatch || wraps
            response := .byte (s.cfg.prgRom.read (w.offset s.prgBank s.cfg.prgSize a.toNat))
            diag := if wraps = true ∧ s.diagSizeMismatch = false then some (.sizeMismatch .prg) else none })

/-- R223: a `cpu_write` to 0x6000..0x7FFF that the guard lets through stores the byte and sets `dirty`, whatever the
value; every other byte of PRG-RAM is unchanged. A blocked write changes nothing. -/
def Obligations.CpuWriteToPrgRamObeysTheGuard : Prop :=
  ∀ (s : State) (a : Addr) (v : Byte), s.cfg.cpuWindowLo.toNat ≤ a.toNat → 0x6000 ≤ a.toNat → a.toNat ≤ 0x7FFF →
    (s.cfg.ramSize = 0 ∨ s.ramEnable = false ∨ s.ramProtect = true →
      exec (.cpuWrite a v) s = .next { s with response := .none, diag := none }) ∧
    (s.cfg.ramSize ≠ 0 → s.ramEnable = true → s.ramProtect = false → s.prgRam.wf →
      ∃ m : Memory, exec (.cpuWrite a v) s =
          .next { s with prgRam := m, dirty := true, response := .none, diag := none } ∧
        m.wf ∧ m.read ((a.toNat - 0x6000) % s.cfg.ramSize) = v ∧
        ∀ o, o ≠ (a.toNat - 0x6000) % s.cfg.ramSize → m.read o = s.prgRam.read o)

/-- R109, R241: below `CPU_WINDOW_LO` a `cpu_write` has no effect and emits `InvalidAddress`; from 0x8000, in a direct-write
profile, it applies the actions of `WRITE_DECODE(a, v)` in list order. `EveryWriteDecodeHasATable` says that the model's
`writeDecode` can be any function of the write. -/
def Obligations.CpuWriteOutsidePrgRam : Prop :=
  ∀ (s : State) (a : Addr) (v : Byte),
    (encode (.cpuWrite a v)).toNat = 0x10000000 + a.toNat * 0x100 + v.toNat ∧
    (a.toNat < s.cfg.cpuWindowLo.toNat →
      exec (.cpuWrite a v) s = .next { s with response := .none, diag := some (.invalidAddress a) }) ∧
    (s.cfg.cpuWindowLo.toNat ≤ a.toNat → 0x8000 ≤ a.toNat → s.cfg.profile.data.serial = false →
      exec (.cpuWrite a v) s = .next
        { (s.cfg.profile.data.writeDecode s.sel a v).foldl (fun u act => applyAction act u) s with
          response := .none, diag := none })

/-- The model's reading (DEDUCED, log entry 10) of a `CPU_WINDOW_LO` below 0x6000, a value the spec does not give: an
address of the window below 0x6000, which R61's map gives to no unit, reads as open bus ("the byte returned when no device
claims a read", R12) and a write to it has no effect. -/
def Obligations.UnclaimedCpuAddressesAreOpenBus : Prop :=
  ∀ (s : State) (a : Addr) (v : Byte), s.cfg.cpuWindowLo.toNat ≤ a.toNat → a.toNat < 0x6000 →
    exec (.cpuRead a) s = .next { s with response := .byte 0xFF, diag := none } ∧
    exec (.cpuWrite a v) s = .next { s with response := .none, diag := none }

/-- The engine's counter after an access that is a rising edge if `rises` (R173). -/
def counterAfterEdge (s : State) (rises : Bool) : Byte :=
  if rises = false then s.irqCounter
  else if s.irqReload = true ∨ s.irqCounter = 0 then s.irqLatch
  else s.irqCounter - 1

/-- The pending flag after an access that is a rising edge if `rises`: only the decrement that reaches 0 while enabled
raises it (R173). -/
def pendingAfterEdge (s : State) (rises : Bool) : Bool :=
  s.irqPending || (rises && !s.irqReload && s.irqCounter == 1 && s.irqEnable)

/-- The access is a rising edge of the watched line in the edge family (R172, R174). -/
def isRisingEdge (s : State) (a : Addr) : Bool :=
  s.cfg.profile.data.irqFamily == .edge && !s.edgePrev && a.getLsbD s.cfg.profile.data.edgeBit

/-- R110 with R172 to R174: a `ppu_read` above 0x1FFF returns 0xFF, emits `InvalidAddress` and is not seen by the edge
detector; an in-range one records the level of the watched line, clocks the engine on a rising edge and not otherwise,
and returns the CHR byte at the decoded offset. Nothing else changes but the diagnostic bit. -/
def Obligations.PpuReadClocksTheEngineAndReads : Prop :=
  ∀ (s : State) (a : Addr),
    (encode (.ppuRead a)).toNat = 0x20000000 + a.toNat * 0x100 ∧
    (0x1FFF < a.toNat →
      exec (.ppuRead a) s = .next { s with response := .byte 0xFF, diag := some (.invalidAddress a) }) ∧
    (a.toNat ≤ 0x1FFF → ConfigWf s.cfg →
      ∃ w ∈ (if s.chrMode then s.cfg.profile.data.chrLayout[1] else s.cfg.profile.data.chrLayout[0]),
        w.base ≤ a.toNat ∧ a.toNat < w.base + w.size ∧
        ∃ wraps : Bool, (wraps = true ↔ bankCount s.cfg.chrSize w.size ≤ w.raw s.chrBank s.cfg.chrSize ∨
            s.cfg.chrSize ≤ w.bank s.chrBank s.cfg.chrSize * w.size + (a.toNat - w.base)) ∧
          exec (.ppuRead a) s = .next { s with
            irqCounter := counterAfterEdge s (isRisingEdge s a)
            irqPending := pendingAfterEdge s (isRisingEdge s a)
            irqReload := s.irqReload && !isRisingEdge s a
            edgePrev := a.getLsbD s.cfg.profile.data.edgeBit
            diagSizeMismatch := s.diagSizeMismatch || wraps
            response := .byte (s.chrMem.read (w.offset s.chrBank s.cfg.chrSize a.toNat))
            diag := if wraps = true ∧ s.diagSizeMismatch = false then some (.sizeMismatch .chr) else none })

/-- R111: a `ppu_write` above 0x1FFF does nothing but emit `InvalidAddress`; an in-range one does to the engine what a
read does, on CHR-RAM stores the byte at the decoded offset and leaves every other byte, and on CHR-ROM writes no byte.
Whether a write to CHR-ROM records a wrapping decode is left open here (log entry 7). -/
def Obligations.PpuWriteStoresOnlyToChrRam : Prop :=
  ∀ (s : State) (a : Addr) (v : Byte),
    (encode (.ppuWrite a v)).toNat = 0x30000000 + a.toNat * 0x100 + v.toNat ∧
    (0x1FFF < a.toNat →
      exec (.ppuWrite a v) s = .next { s with response := .none, diag := some (.invalidAddress a) }) ∧
    (a.toNat ≤ 0x1FFF → ConfigWf s.cfg → s.chrMem.wf →
      ∃ w ∈ (if s.chrMode then s.cfg.profile.data.chrLayout[1] else s.cfg.profile.data.chrLayout[0]),
        w.base ≤ a.toNat ∧ a.toNat < w.base + w.size ∧
        ∃ (wraps : Bool) (m : Memory),
          (s.cfg.chrIsRam = true →
            (wraps = true ↔ bankCount s.cfg.chrSize w.size ≤ w.raw s.chrBank s.cfg.chrSize ∨
              s.cfg.chrSize ≤ w.bank s.chrBank s.cfg.chrSize * w.size + (a.toNat - w.base))) ∧
          exec (.ppuWrite a v) s = .next { s with
            irqCounter := counterAfterEdge s (isRisingEdge s a)
            irqPending := pendingAfterEdge s (isRisingEdge s a)
            irqReload := s.irqReload && !isRisingEdge s a
            edgePrev := a.getLsbD s.cfg.profile.data.edgeBit
            diagSizeMismatch := s.diagSizeMismatch || wraps
            chrMem := m
            response := .none
            diag := if wraps = true ∧ s.diagSizeMismatch = false then some (.sizeMismatch .chr) else none } ∧
          (s.cfg.chrIsRam = false → m = s.chrMem) ∧
          (s.cfg.chrIsRam = true → m.wf ∧ m.read (w.offset s.chrBank s.cfg.chrSize a.toNat) = v ∧
            ∀ o, o ≠ w.offset s.chrBank s.cfg.chrSize a.toNat → m.read o = s.chrMem.read o))

/-- The spec derives in R134: with CHR-RAM, a `ppu_read` of any address that decodes to the offset just written returns the written byte. -/
def Obligations.ChrRamRoundTrip : Prop :=
  ∀ (s t u : State) (a a' : Addr) (v : Byte), InstanceInv s → s.cfg.chrIsRam = true →
    a.toNat ≤ 0x1FFF → a'.toNat ≤ 0x1FFF → chrOffset s a' = chrOffset s a →
    exec (.ppuWrite a v) s = .next t → exec (.ppuRead a') t = .next u → u.response = .byte v

/-! ## Reset and mirroring -/

/-- R300: `reset()` sets every register field to the profile's reset value and the serial and interrupt fields to 0; the
memories, `dirty` and the diagnostic bit are unchanged. A second `reset()` changes nothing more. -/
def Obligations.ResetRestoresTheRegisters : Prop :=
  ∀ s : State, encode .reset = 0x40000000 ∧
    ∃ t, exec .reset s = .next t ∧
      t = { s with
        prgBank := s.cfg.profile.data.resetValues.prgBank
        chrBank := s.cfg.profile.data.resetValues.chrBank
        prgMode := s.cfg.profile.data.resetValues.prgMode
        chrMode := s.cfg.profile.data.resetValues.chrMode
        mirrorField := t.mirrorField
        ramEnable := s.cfg.profile.data.resetValues.ramEnable
        ramProtect := s.cfg.profile.data.resetValues.ramProtect
        sel := 0, shift := 0, count := 0, irqLatch := 0, irqCounter := 0
        irqEnable := false, irqPending := false, irqReload := false, countMode := false, edgePrev := false
        response := .none, diag := none } ∧
      (∀ f, s.cfg.profile.data.resetValues.mirrorField = .value f → t.mirrorField = f) ∧
      (s.cfg.profile.data.resetValues.mirrorField = .encHeader →
        t.mirrorField = s.cfg.profile.data.enc s.cfg.headerMirror) ∧
      exec .reset t = .next t

/-- `enc(HEADER_MIRROR)` in Profile S, by the mode (R155; a mode no field value decodes to is 0). -/
def encS : Mirroring → BitVec 2
  | .horizontal => 3
  | .vertical => 2
  | .oneScreenLow => 0
  | .oneScreenHigh => 1
  | .fourScreen => 0

/-- `enc(HEADER_MIRROR)` in Profile E (R155). -/
def encE : Mirroring → BitVec 2
  | .horizontal => 1
  | _ => 0

/-- `enc(HEADER_MIRROR)` in Profile C (R155, R257). -/
def encC : Mirroring → BitVec 2
  | .horizontal => 1
  | .oneScreenLow => 2
  | .oneScreenHigh => 3
  | _ => 0

/-- The columns of R301 for the reference profiles, with R155 (the values are the spec's own, D12 and D29): banks 0, RAM enabled and not protected, `prg_mode` 3 in
Profile S and 0 in the others, `mirror_field` the encoding of the header's mode. -/
def Obligations.ReferenceResetValues : Prop :=
  ∀ s t : State, s.cfg.profile ∈ [Profile.S, Profile.E, Profile.C] → exec .reset s = .next t →
    (∀ i : Fin 4, t.prgBank[i] = 0) ∧ (∀ j : Fin 8, t.chrBank[j] = 0) ∧ t.chrMode = false ∧
    t.ramEnable = true ∧ t.ramProtect = false ∧
    (s.cfg.profile = .S → t.prgMode = 3 ∧ t.mirrorField = encS s.cfg.headerMirror) ∧
    (s.cfg.profile = .E → t.prgMode = 0 ∧ t.mirrorField = encE s.cfg.headerMirror) ∧
    (s.cfg.profile = .C → t.prgMode = 0 ∧ t.mirrorField = encC s.cfg.headerMirror)

/-- R151, R152: `get_mirror_mode()` returns code 4 with four-screen wiring, the header's mode in a profile without a
mirroring register, and otherwise the mode `mirror_field` decodes to; it writes no state. -/
def Obligations.GetMirrorFollowsTheMultiplexer : Prop :=
  ∀ s : State, encode .getMirror = 0x90000000 ∧
    ∃ code : BitVec 3, exec .getMirror s = .next { s with response := .mirror code, diag := none } ∧
      (s.cfg.headerMirror = .fourScreen → code = 4) ∧
      (s.cfg.headerMirror ≠ .fourScreen → s.cfg.profile.data.mirrorSource = .header →
        code = mirrorCode s.cfg.headerMirror) ∧
      (s.cfg.headerMirror ≠ .fourScreen → s.cfg.profile.data.mirrorSource = .register →
        code = mirrorCode (s.cfg.profile.data.mirrorDecode[s.mirrorField.toFin]))

/-- R153, R154: a write to the mirroring register stores the field, and the very next query reports the mode it decodes
to, unless four-screen wiring overrides it. -/
def Obligations.MirroringWritesTakeEffectAtOnce : Prop :=
  ∀ (s t u : State) (a : Addr) (v : Byte), s.cfg.cpuWindowLo.toNat ≤ a.toNat →
    (s.cfg.profile = .E → exec (.eMirror a v) s = .next t → exec .getMirror t = .next u →
      t.mirrorField.toNat = v.toNat % 2 ∧
      u.response = .mirror (if s.cfg.headerMirror = .fourScreen then 4 else if v.toNat % 2 = 1 then 0 else 1)) ∧
    (s.cfg.profile = .C → exec (.cMirror a v) s = .next t → exec .getMirror t = .next u →
      t.mirrorField.toNat = v.toNat % 4 ∧
      u.response = .mirror (if s.cfg.headerMirror = .fourScreen then 4
        else if v.toNat % 4 = 0 then 1 else if v.toNat % 4 = 1 then 0 else if v.toNat % 4 = 2 then 2 else 3))

/-! ## The interrupt engine -/

/-- The counter after one tick (R176, R177). -/
def counterAfterTick (s : State) : Byte :=
  match s.cfg.profile.data.counterDir with
  | .up => if s.irqCounter ≠ 0xFF then s.irqCounter + 1
    else if s.irqEnable = true ∨ s.cfg.profile.data.wrapWhenDisabled = .reload then s.irqLatch else 0x00
  | .down => if s.irqCounter ≠ 0x00 then s.irqCounter - 1
    else if s.irqEnable = true ∨ s.cfg.profile.data.wrapWhenDisabled = .reload then s.irqLatch else 0xFF

/-- The pending flag after one tick: raised by the wrap while enabled (R176, R177). -/
def pendingAfterTick (s : State) : Bool :=
  s.irqPending || (s.irqEnable && s.irqCounter == (match s.cfg.profile.data.counterDir with
    | .up => 0xFF
    | .down => 0x00))

/-- R178 with R176 and R177: in the counter family's scanline mode `scanline()` is one tick; otherwise it has no
effect. -/
def Obligations.ScanlineIsOneTick : Prop :=
  ∀ s : State, encode .scanline = 0x50000000 ∧
    (s.cfg.profile.data.irqFamily = .counter ∧ s.countMode = false →
      exec .scanline s = .next { s with
        irqCounter := counterAfterTick s, irqPending := pendingAfterTick s, response := .none, diag := none }) ∧
    (¬ (s.cfg.profile.data.irqFamily = .counter ∧ s.countMode = false) →
      exec .scanline s = .next { s with response := .none, diag := none })

/-- R179: in the counter family's cycle mode `clock(0)` does nothing, `clock(1)` is one tick, and `clock(n)` then
`clock(m)` equals `clock(n + m)`; in any other case `clock(n)` has no effect. Every `clock(n)` completes and writes the
counter and the pending flag only. -/
def Obligations.ClockIsOneTickPerCycle : Prop :=
  ∀ (s : State) (n m : Addr),
    (encode (.clock n)).toNat = 0x60000000 + n.toNat * 0x100 ∧
    (¬ (s.cfg.profile.data.irqFamily = .counter ∧ s.countMode = true) →
      exec (.clock n) s = .next { s with response := .none, diag := none }) ∧
    (s.cfg.profile.data.irqFamily = .counter → s.countMode = true →
      exec (.clock 0) s = .next { s with response := .none, diag := none } ∧
      exec (.clock 1) s = .next { s with
        irqCounter := counterAfterTick s, irqPending := pendingAfterTick s, response := .none, diag := none } ∧
      ∃ t c p, exec (.clock n) s = .next t ∧
        t = { s with irqCounter := c, irqPending := p, response := .none, diag := none } ∧
        (n.toNat + m.toNat < 0x10000 → exec (.clock m) t = exec (.clock (n + m)) s))

/-- The period of the counter, which the spec derives in R176: counting up and enabled, from a counter loaded with the latch `L`, the interrupt
is raised by the `(0x100 - L)`-th tick and not before, and that tick reloads `L`. -/
def Obligations.CounterInterruptPeriod : Prop :=
  ∀ (s : State) (n : Addr), s.cfg.profile.data.irqFamily = .counter → s.cfg.profile.data.counterDir = .up →
    s.countMode = true → s.irqEnable = true → s.irqPending = false → s.irqCounter = s.irqLatch →
    n.toNat + s.irqLatch.toNat ≤ 0x100 →
    ∃ t, exec (.clock n) s = .next t ∧ (t.irqPending = true ↔ n.toNat + s.irqLatch.toNat = 0x100) ∧
      t.irqCounter.toNat = if n.toNat + s.irqLatch.toNat = 0x100 then s.irqLatch.toNat
        else s.irqLatch.toNat + n.toNat

/-- R180, R181: `irq_state()` returns the pending level and changes nothing; `irq_clear()` clears it and writes nothing
else. -/
def Obligations.IrqStatePeeksAndIrqClearClears : Prop :=
  ∀ s : State, encode .irqState = 0x70000000 ∧ encode .irqClear = 0x80000000 ∧
    exec .irqState s = .next { s with response := .bit s.irqPending, diag := none } ∧
    exec .irqClear s = .next { s with irqPending := false, response := .none, diag := none }

/-- R190: with latch `L` of at least 1, a reload requested and the interrupt enabled, `k` further rising edges after the
first leave the counter at `L - k`, and the interrupt is pending exactly from the `L`-th further edge; the edge after it
reloads `L`, which the spec derives. An edge is one low and one high access of bit 12. -/
def Obligations.EdgeInterruptComesAtTheLatchCount : Prop :=
  ∀ (s : State) (k : Nat), ConfigWf s.cfg → s.cfg.profile.data.irqFamily = .edge → s.cfg.profile.data.edgeBit = 12 →
    1 ≤ s.irqLatch.toNat → s.irqReload = true → s.irqEnable = true → s.irqPending = false →
    k ≤ s.irqLatch.toNat + 1 →
    ∃ t, execAll (PseudoOp.a12Edges (k + 1)).expand s = .next t ∧
      t.irqCounter.toNat = (if k = s.irqLatch.toNat + 1 then s.irqLatch.toNat else s.irqLatch.toNat - k) ∧
      (t.irqPending = true ↔ s.irqLatch.toNat ≤ k)

/-- R188: `irq_pending` becomes 1 only by a rising edge that brings the enabled edge counter from 1 to 0, or by the
enabled counter family's `scanline` or `clock`; it becomes 0 only by `irq_clear`, `reset`, a disable or an acknowledge.
Stated for the transactions of each reference profile. -/
def Obligations.PendingChangesOnlyByTheListedEvents : Prop :=
  ∀ (s t : State) (i : Instr), s.cfg.profile ∈ [Profile.S, Profile.E, Profile.C] →
    i.wf = true → i.readIn s.cfg.profile = true → exec i s = .next t →
    (s.irqPending = false → t.irqPending = true →
      (s.irqEnable = true ∧ s.cfg.profile = .E ∧ s.irqCounter = 1 ∧ s.irqReload = false ∧
        ∃ a, isRisingEdge s a = true ∧ a.toNat ≤ 0x1FFF ∧ (i = .ppuRead a ∨ ∃ v, i = .ppuWrite a v)) ∨
      (s.irqEnable = true ∧ s.cfg.profile = .C ∧
        ((i = .scanline ∧ s.countMode = false) ∨ ∃ n, i = .clock n ∧ s.countMode = true))) ∧
    (s.irqPending = true → t.irqPending = false →
      i = .irqClear ∨ i = .reset ∨ (∃ a v, i = .eIrqDisable a v) ∨ (∃ a v, i = .cIrqAck a v) ∨
      ∃ a v, i = .cIrqControl a v ∧ v.getLsbD 0 = false)

/-- The spec derives in R189: in a profile with no engine the register decode produces no IRQ action, no transaction raises
the interrupt, so from a clear level `irq_state()` keeps returning 0, and the interrupt fields keep their reset values.
That the decode drops an IRQ action its table holds is the model's reading (DEDUCED, log entry 20). -/
def Obligations.WithoutAnEngineNoInterrupt : Prop :=
  (∀ (d : ProfileData) (t : Target) (sel : BitVec 3) (a : Addr) (v : Byte) (value : BitVec 5), d.irqFamily = .none →
    ∀ act ∈ d.writeDecode sel a v ++ d.commitDecode t sel a value, act.isIrq = false) ∧
  ∀ (s t : State) (i : Instr), s.cfg.profile.data.irqFamily = .none → exec i s = .next t →
    (s.irqPending = false →
      t.irqPending = false ∧ exec .irqState t = .next { t with response := .bit false, diag := none }) ∧
    (s.irqLatch = 0 → t.irqLatch = 0) ∧ (s.irqCounter = 0 → t.irqCounter = 0) ∧
    (s.irqEnable = false → t.irqEnable = false) ∧ (s.irqReload = false → t.irqReload = false) ∧
    (s.countMode = false → t.countMode = false)

/-! ## The serial loader -/

/-- `shift` with the bit at position `count` replaced by `b` (R202). -/
def bitPlaced (s : State) (b : Bool) (shift : BitVec 5) : Prop :=
  ∀ j, j < 5 → shift.getLsbD j = if j = s.count.toNat then b else s.shift.getLsbD j

/-- R243 to R247 with R201 to R203: the rows of Profile S (the profile is the spec's own decision, D26), with their
encodings, at an address in range. A reset write clears the loader and forces `prg_mode` 3; a shift write at a count of 0
to 4, the values R30 admits, places bit 0 of the value at the count and advances it, and the fifth commits the five bits to
the row's target and clears the loader. -/
def Obligations.SerialRowsShiftAndCommit : Prop :=
  rowsDecode .S ∧ ∀ (s : State) (a : Addr) (v : Byte), s.cfg.profile = .S → s.cfg.cpuWindowLo.toNat ≤ a.toNat →
    exec (.sReset a v) s = .next { s with shift := 0, count := 0, prgMode := 3, response := .none, diag := none } ∧
    (s.count.toNat ≤ 4 → ∃ shift, bitPlaced s (v.getLsbD 0) shift ∧
      (s.count.toNat < 4 →
        ∀ i ∈ [Instr.sShiftControl a v, .sShiftChr0 a v, .sShiftChr1 a v, .sShiftPrg a v],
          exec i s = .next { s with shift := shift, count := s.count + 1, response := .none, diag := none }) ∧
      (s.count = 4 →
        exec (.sShiftControl a v) s = .next { s with
          mirrorField := shift.extractLsb' 0 2, prgMode := shift.extractLsb' 2 2, chrMode := shift.getLsbD 4
          shift := 0, count := 0, response := .none, diag := none } ∧
        exec (.sShiftChr0 a v) s = .next { s with
          chrBank := s.chrBank.set 0 (shift.setWidth 8), shift := 0, count := 0, response := .none, diag := none } ∧
        exec (.sShiftChr1 a v) s = .next { s with
          chrBank := s.chrBank.set 1 (shift.setWidth 8), shift := 0, count := 0, response := .none, diag := none } ∧
        exec (.sShiftPrg a v) s = .next { s with
          prgBank := s.prgBank.set 0 ((shift.extractLsb' 0 4).setWidth 8), ramEnable := !shift.getLsbD 4
          shift := 0, count := 0, response := .none, diag := none }))

/-- The spec derives in R206: in a serial profile, from `count` 0, five consecutive shift writes commit exactly once, at the fifth, the value
`b0 + 2*b1 + 4*b2 + 8*b3 + 16*b4`, to the target of the fifth address (R204); four or fewer commit nothing, and a reset
write discards the bits so far. -/
def Obligations.FiveSerialWritesCommitOnce : Prop :=
  ∀ (s : State) (a : Fin 5 → Addr) (v : Fin 5 → Byte), s.cfg.profile.data.serial = true → s.count = 0 →
    (∀ k, s.cfg.cpuWindowLo.toNat ≤ (a k).toNat ∧ 0x8000 ≤ (a k).toNat ∧ (v k).getLsbD 7 = false) →
    (∀ n, n ≤ 4 → ∃ shift,
      execAll ((List.ofFn (fun k => Instr.cpuWrite (a k) (v k))).take n) s =
        (if n = 0 then .next s else
          .next { s with shift := shift, count := BitVec.ofNat 3 n, response := .none, diag := none }) ∧
      ∀ (a' : Addr) (v' : Byte), s.cfg.cpuWindowLo.toNat ≤ a'.toNat → 0x8000 ≤ a'.toNat → v'.getLsbD 7 = true →
        execAll ((List.ofFn (fun k => Instr.cpuWrite (a k) (v k))).take n ++ [.cpuWrite a' v']) s =
          .next { s with
            shift := 0, count := 0, prgMode := s.cfg.profile.data.fixedBankMode, response := .none, diag := none }) ∧
    ∃ value : BitVec 5, value.toNat = (v 0).toNat % 2 + 2 * ((v 1).toNat % 2) + 4 * ((v 2).toNat % 2) +
        8 * ((v 3).toNat % 2) + 16 * ((v 4).toNat % 2) ∧
      execAll (List.ofFn (fun k => Instr.cpuWrite (a k) (v k))) s =
        .next { commitTarget (s.cfg.profile.data.serialTarget.lookup (a 4)) (a 4) value s with
          shift := 0, count := 0, response := .none, diag := none }

/-! ## The direct-write rows -/

/-- R249 to R256: the rows of Profile E (the spec's own decision, D27), with their encodings, each at an address in range
with exactly the fields its rule writes. -/
def Obligations.ProfileERowsWriteTheirRegisters : Prop :=
  rowsDecode .E ∧ ∀ (s : State) (a : Addr) (v : Byte), s.cfg.profile = .E → s.cfg.cpuWindowLo.toNat ≤ a.toNat →
    exec (.eBankSelect a v) s = .next { s with
      sel := v.extractLsb' 0 3, chrMode := v.getLsbD 7, response := .none, diag := none } ∧
    (∀ j : Fin 8, s.sel.toNat = j.val → j.val ≤ 5 →
      exec (.eBankData a v) s = .next { s with chrBank := s.chrBank.set j v, response := .none, diag := none }) ∧
    (s.sel = 6 → exec (.eBankData a v) s = .next { s with
      prgBank := s.prgBank.set 0 v, response := .none, diag := none }) ∧
    (s.sel = 7 → exec (.eBankData a v) s = .next { s with
      prgBank := s.prgBank.set 1 v, response := .none, diag := none }) ∧
    exec (.eMirror a v) s = .next { s with
      mirrorField := (v.extractLsb' 0 1).setWidth 2, response := .none, diag := none } ∧
    exec (.eRamProtect a v) s = .next { s with
      ramEnable := v.getLsbD 7, ramProtect := v.getLsbD 6, response := .none, diag := none } ∧
    exec (.eIrqLatch a v) s = .next { s with irqLatch := v, response := .none, diag := none } ∧
    exec (.eIrqReload a v) s = .next { s with irqReload := true, response := .none, diag := none } ∧
    exec (.eIrqDisable a v) s = .next { s with
      irqEnable := false, irqPending := false, response := .none, diag := none } ∧
    exec (.eIrqEnable a v) s = .next { s with irqEnable := true, response := .none, diag := none }

/-- R258 to R265: the rows of Profile C (the spec's own decision, D28), with their encodings, each at an address in range
with exactly the fields its rule writes; the ignored rows write none. -/
def Obligations.ProfileCRowsWriteTheirRegisters : Prop :=
  rowsDecode .C ∧ ∀ (s : State) (a : Addr) (v : Byte), s.cfg.profile = .C → s.cfg.cpuWindowLo.toNat ≤ a.toNat →
    exec (.cPrg a v) s = .next { s with prgBank := s.prgBank.set 0 v, response := .none, diag := none } ∧
    exec (.cMirror a v) s = .next { s with mirrorField := v.extractLsb' 0 2, response := .none, diag := none } ∧
    (∀ j : Fin 8, j.val = a.toNat % 4 →
      exec (.cChrLo a v) s = .next { s with chrBank := s.chrBank.set j v, response := .none, diag := none }) ∧
    (∀ j : Fin 8, j.val = 4 + a.toNat % 4 →
      exec (.cChrHi a v) s = .next { s with chrBank := s.chrBank.set j v, response := .none, diag := none }) ∧
    exec (.cIrqLatch a v) s = .next { s with irqLatch := v, response := .none, diag := none } ∧
    exec (.cIrqControl a v) s = .next { s with
      irqEnable := v.getLsbD 0, countMode := v.getLsbD 1
      irqCounter := if v.getLsbD 0 then s.irqLatch else s.irqCounter
      irqPending := if v.getLsbD 0 then s.irqPending else false
      response := .none, diag := none } ∧
    exec (.cIrqAck a v) s = .next { s with irqPending := false, response := .none, diag := none } ∧
    (∀ i ∈ [Instr.cIgnoredA a v, .cIgnoredD a v, .cIgnoredE a v, .cIgnoredF3 a v],
      exec i s = .next { s with response := .none, diag := none })

/-- R67, R132 (a): writing the same bank-select value twice is writing it once. -/
def Obligations.BankWritesAreIdempotent : Prop :=
  ∀ (s t : State) (a : Addr) (v : Byte) (i : Instr),
    (s.cfg.profile = .E ∧ i = .eBankData a v) ∨
      (s.cfg.profile = .C ∧ (i = .cPrg a v ∨ i = .cChrLo a v ∨ i = .cChrHi a v)) →
    exec i s = .next t → exec i t = .next t

/-! ## The persistence port -/

/-- R224, R225: the port reads and writes PRG-RAM by offset, gated by nothing; `save_write` does not set `dirty`; an offset
from `S_ram` up reads 0xFF and writes nothing. Every byte not written is unchanged. -/
def Obligations.PersistencePortReadsAndWrites : Prop :=
  ∀ (s : State) (o : Addr) (v : Byte),
    (encode (.saveRead o)).toNat = 0xA0000000 + o.toNat * 0x100 ∧
    (encode (.saveWrite o v)).toNat = 0xB0000000 + o.toNat * 0x100 + v.toNat ∧
    (o.toNat < s.cfg.ramSize →
      exec (.saveRead o) s = .next { s with response := .byte (s.prgRam.read o.toNat), diag := none } ∧
      (s.prgRam.wf → ∃ m : Memory,
        exec (.saveWrite o v) s = .next { s with prgRam := m, response := .none, diag := none } ∧
        m.wf ∧ m.read o.toNat = v ∧ ∀ o', o' ≠ o.toNat → m.read o' = s.prgRam.read o')) ∧
    (s.cfg.ramSize ≤ o.toNat →
      exec (.saveRead o) s = .next { s with response := .byte 0xFF, diag := none } ∧
      exec (.saveWrite o v) s = .next { s with response := .none, diag := none })

/-- R226, R227: `dirty_read()` returns the flag and leaves it; `dirty_clear()` clears it and writes nothing else. -/
def Obligations.DirtyFlagIsReadAndCleared : Prop :=
  ∀ s : State, encode .dirtyRead = 0xC0000000 ∧ encode .dirtyClear = 0xD0000000 ∧
    exec .dirtyRead s = .next { s with response := .bit s.dirty, diag := none } ∧
    exec .dirtyClear s = .next { s with dirty := false, response := .none, diag := none }

/-! ## Whole-machine rules -/

/-- R133, R37, R38: no step writes CHR-ROM, and none writes PRG-ROM. -/
def Obligations.RomIsNeverWritten : Prop :=
  ∀ s t : State, step s = .next t →
    t.cfg.prgRom = s.cfg.prgRom ∧ (s.cfg.chrIsRam = false → t.chrMem = s.chrMem)

/-- R39, R29: PRG-RAM changes only by a `cpu_write` in 0x6000..0x7FFF that the guard lets through, or by `save_write`;
`dirty` is set only by such a `cpu_write` and cleared only by `dirty_clear`. -/
def Obligations.PrgRamAndDirtyChangeOnlyByTheirWriters : Prop :=
  ∀ (s t : State) (i : Instr), i.wf = true → exec i s = .next t →
    (t.prgRam ≠ s.prgRam →
      (∃ a v, i = .cpuWrite a v ∧ s.cfg.cpuWindowLo.toNat ≤ a.toNat ∧ 0x6000 ≤ a.toNat ∧ a.toNat ≤ 0x7FFF ∧
        s.ramEnable = true ∧ s.ramProtect = false) ∨
      ∃ o v, i = .saveWrite o v ∧ o.toNat < s.cfg.ramSize) ∧
    (s.dirty = false → t.dirty = true →
      ∃ a v, i = .cpuWrite a v ∧ s.cfg.cpuWindowLo.toNat ≤ a.toNat ∧ 0x6000 ≤ a.toNat ∧ a.toNat ≤ 0x7FFF ∧
        s.ramEnable = true ∧ s.ramProtect = false) ∧
    (s.dirty = true → t.dirty = false → i = .dirtyClear)

/-- R66: `cpu_read`, `irq_state`, `get_mirror_mode`, `save_read` and `dirty_read` change no state but their output and the
diagnostic bit. -/
def Obligations.ReadsHaveNoSideEffects : Prop :=
  ∀ (s t : State) (i : Instr), exec i s = .next t →
    (∃ a, i = .cpuRead a) ∨ i = .irqState ∨ i = .getMirror ∨ (∃ o, i = .saveRead o) ∨ i = .dirtyRead →
    t = { s with response := t.response, diag := t.diag, diagSizeMismatch := t.diagSizeMismatch } ∧
    ((∀ a, i ≠ .cpuRead a) → t.diagSizeMismatch = s.diagSizeMismatch)

/-- R282, R35: `SizeMismatch` is emitted exactly by the transaction that sets the diagnostic bit, and the bit is never
cleared, so it is emitted at most once in the life of an instance. -/
def Obligations.SizeMismatchIsLoggedOnce : Prop :=
  ∀ (s t : State) (i : Instr), exec i s = .next t →
    ((∃ store, t.diag = some (.sizeMismatch store)) ↔ s.diagSizeMismatch = false ∧ t.diagSizeMismatch = true) ∧
    (s.diagSizeMismatch = true → t.diagSizeMismatch = true)

/-- R283: `InvalidAddress` is emitted, with the address, by exactly the CPU accesses below `CPU_WINDOW_LO` and the PPU
accesses above 0x1FFF. A second-level row of a window that starts above 0x8000 is such a CPU access. -/
def Obligations.InvalidAddressIsEmittedExactlyOutOfRange : Prop :=
  ∀ (s t : State) (i : Instr) (a : Addr), i.wf = true → exec i s = .next t →
    (t.diag = some (.invalidAddress a) ↔
      (a.toNat < s.cfg.cpuWindowLo.toNat ∧ (i = .cpuRead a ∨ ∃ v, encode i = encode (.cpuWrite a v))) ∨
      (0x1FFF < a.toNat ∧ (i = .ppuRead a ∨ ∃ v, i = .ppuWrite a v)))

/-- Equal contents are equal data: two stores in canonical form that read alike at every offset are the same list, a
store's write keeps the form, and a loader's byte array reads as its listed cells, the last one for an offset, and 0x00
elsewhere (the model's representation, log entry 3). -/
def Obligations.StoresAreCanonical : Prop :=
  (∀ m m' : Memory, m.wf → m'.wf → (∀ o, m.read o = m'.read o) → m = m') ∧
  (∀ (m : Memory) (o : Nat) (v : Byte), m.wf → (m.write o v).wf) ∧
  (∀ (m : Memory) (o o' : Nat) (v : Byte), m.wf → (m.write o v).read o' = if o' = o then v else m.read o') ∧
  (∀ (size : Nat) (cells : List Host.Cell) (o : Nat), (Memory.ofCells size cells).wf ∧
    (Memory.ofCells size cells).read o =
      if o < size then ((cells.reverse.find? (fun c => c.1 == o)).map (·.2)).getD 0 else 0)

/-- Every function from `sel`, the address and the data byte to a list of register actions, with no IRQ action where the
profile has no engine (R189), is the `WRITE_DECODE` of some table, so the model's form shuts out no variant (R6, R241; the
table form is the model's, log entry 9). -/
def Obligations.EveryWriteDecodeHasATable : Prop :=
  ∀ (d : ProfileData) (f : BitVec 3 → Addr → Byte → List (Action Byte)),
    (d.irqFamily = .none → ∀ (sel : BitVec 3) (a : Addr) (v : Byte), ∀ act ∈ f sel a v, act.isIrq = false) →
    ∃ rows : List WriteRow, ∀ (sel : BitVec 3) (a : Addr) (v : Byte),
      { d with writeRows := rows }.writeDecode sel a v = f sel a v

/-- Every function from the target and the committed value to a list of register actions, with no IRQ action where the
profile has no engine (R189), is what the commits of some tables write, so the model's form shuts out no serial variant
(R203; the table form is the model's, log entry 9). -/
def Obligations.EveryCommitHasATable : Prop :=
  ∀ (d : ProfileData) (f : Target → BitVec 5 → List (Action Byte)),
    (d.irqFamily = .none → ∀ (t : Target) (value : BitVec 5), ∀ act ∈ f t value, act.isIrq = false) →
    ∃ commits : Commits, ∀ (t : Target) (sel : BitVec 3) (a : Addr) (value : BitVec 5),
      { d with commits := commits }.commitDecode t sel a value = f t value
end

