-- ==== Sys2Proof/Laws/Config.lean ====
section
/-! SUPPORT. Tiled layouts: the reference profiles are tiled, and a tiled layout has a window for every address. When the
check of a serial target map (W6) passes. -/

namespace Sys2Proof

theorem tiled_S : profileS.tiled = true := by decide +kernel

theorem tiled_E : profileE.tiled = true := by decide +kernel

theorem tiled_C : profileC.tiled = true := by decide +kernel

/-- A window of a tiling has one of the sizes, an aligned base, and lies in the range. -/
theorem tiles_window {sizes : List Nat} {lo len grain : Nat} {ws : List (Nat × Nat)} (h : tiles sizes lo len grain ws = true)
    {w : Nat × Nat} (hw : w ∈ ws) : w.2 ∈ sizes ∧ w.2 ∣ w.1 ∧ lo ≤ w.1 ∧ w.1 + w.2 ≤ lo + len := by
  simp only [tiles, Bool.and_eq_true, List.all_eq_true] at h
  have h' := h.1 w hw
  simp only [List.contains_iff_mem, beq_iff_eq, decide_eq_true_eq] at h'
  exact ⟨h'.1.1.1, Nat.dvd_of_mod_eq_zero h'.1.1.2, h'.1.2, h'.2⟩

/-- An aligned window answers an address exactly when it answers the start of the address's block. -/
theorem spanAnswers_block {grain lo a : Nat} {w : Nat × Nat} (hg : 0 < grain) (hb : grain ∣ w.1) (hz : grain ∣ w.2)
    (hlo : grain ∣ lo) (ha : lo ≤ a) : spanAnswers w (lo + (a - lo) / grain * grain) = spanAnswers w a := by
  obtain ⟨b, hb⟩ := hb
  obtain ⟨z, hz⟩ := hz
  obtain ⟨l, rfl⟩ := hlo
  have e : grain * l + (a - grain * l) / grain * grain = a / grain * grain := by
    rw [show a = grain * l + (a - grain * l) by omega, Nat.add_sub_cancel_left, Nat.mul_add_div hg, Nat.add_mul,
      Nat.mul_comm grain l]
  have h1 : ∀ c, grain * c ≤ a / grain * grain ↔ grain * c ≤ a := fun c => by
    rw [Nat.mul_comm grain c]
    constructor
    · exact fun h => h.trans (Nat.div_mul_le_self a grain)
    · exact fun h => Nat.mul_le_mul_right _ ((Nat.le_div_iff_mul_le hg).2 h)
  simp only [spanAnswers, e, hb, hz, ← Nat.mul_add]
  rw [Bool.eq_iff_iff]
  simp only [Bool.and_eq_true, decide_eq_true_eq, h1, ← Nat.not_le]

/-- A tiling has exactly one window for each address of its range. -/
theorem tiles_exactly_one {sizes : List Nat} {lo len grain : Nat} {ws : List (Nat × Nat)} (hg : 0 < grain)
    (hsizes : ∀ z ∈ sizes, grain ∣ z) (hlo : grain ∣ lo) (hlen : grain ∣ len) (h : tiles sizes lo len grain ws = true)
    {a : Nat} (h1 : lo ≤ a) (h2 : a < lo + len) : (ws.filter (spanAnswers · a)).length = 1 := by
  have hw := fun w (hw : w ∈ ws) => tiles_window h hw
  simp only [tiles, Bool.and_eq_true, List.all_eq_true, List.mem_range, beq_iff_eq] at h
  have hk : (a - lo) / grain < len / grain := Nat.div_lt_div_of_lt_of_dvd hlen (by omega)
  rw [← h.2 _ hk]
  congr 1
  refine List.filter_congr fun w m => ?_
  have hz := hsizes _ (hw w m).1
  exact (spanAnswers_block hg (hz.trans (hw w m).2.1) hz hlo h1).symm

theorem prgTiles_exactly_one {ws : List (Nat × Nat)} (h : prgTiles ws = true) {a : Nat} (h1 : 0x8000 ≤ a)
    (h2 : a ≤ 0xFFFF) : (ws.filter (spanAnswers · a)).length = 1 :=
  tiles_exactly_one (by decide) (by decide) (by decide) (by decide) h h1 (by omega)

theorem chrTiles_exactly_one {ws : List (Nat × Nat)} (h : chrTiles ws = true) {a : Nat} (h2 : a ≤ 0x1FFF) :
    (ws.filter (spanAnswers · a)).length = 1 :=
  tiles_exactly_one (by decide) (by decide) (by decide) (by decide) h (Nat.zero_le a) (by omega)

theorem ProfileData.tiled_prg {d : ProfileData} (h : d.tiled = true) (m : Fin 4) :
    prgTiles (d.prgLayout[m].map Window.span) = true := by
  simp only [ProfileData.tiled, Bool.and_eq_true, List.all_eq_true] at h
  exact h.1 _ (by simp)

theorem ProfileData.tiled_chr {d : ProfileData} (h : d.tiled = true) (m : Fin 2) :
    chrTiles (d.chrLayout[m].map Window.span) = true := by
  simp only [ProfileData.tiled, Bool.and_eq_true, List.all_eq_true] at h
  exact h.2 _ (by simp)

theorem Window.answers_iff {n : Nat} (w : Window n) (a : Nat) :
    w.answers a = true ↔ w.base ≤ a ∧ a < w.base + w.size := by
  rw [Window.answers, spanAnswers, Bool.and_eq_true, decide_eq_true_iff, decide_eq_true_iff]; rfl

/-- What `findWindow` gives is a window of the layout that answers the address. -/
theorem findWindow_some {n : Nat} {layout : List (Window n)} {a : Nat} {w : Window n}
    (h : findWindow layout a = some w) : w ∈ layout ∧ w.base ≤ a ∧ a < w.base + w.size :=
  ⟨List.mem_of_find?_eq_some h, (w.answers_iff a).1 (by simpa using List.find?_some h)⟩

/-- Where the spans of a layout have a window for the address, `findWindow` finds one. -/
theorem findWindow_isSome {n : Nat} {layout : List (Window n)} {a : Nat}
    (h : ((layout.map Window.span).filter (spanAnswers · a)).length = 1) : ∃ w, findWindow layout a = some w := by
  rw [List.filter_map, List.length_map] at h
  cases hf : findWindow layout a with
  | some w => exact ⟨w, rfl⟩
  | none =>
    have : layout.filter ((spanAnswers · a) ∘ Window.span) = [] :=
      List.filter_eq_nil_iff.2 fun w m => by simpa [Window.answers] using List.find?_eq_none.1 hf w m
    simp [this] at h

namespace Machine

/-- In a tiled profile a register-range address has a PRG window. -/
theorem prgWindow_isSome {s : State} (h : s.cfg.profile.data.tiled = true) {a : Addr} (ha : 0x8000 ≤ a.toNat) :
    ∃ w, prgWindow s a = some w :=
  findWindow_isSome (prgTiles_exactly_one (ProfileData.tiled_prg h _) ha (by have := a.isLt; omega))

/-- In a tiled profile a pattern-table address has a CHR window. -/
theorem chrWindow_isSome {s : State} (h : s.cfg.profile.data.tiled = true) {a : Addr} (ha : a.toNat ≤ 0x1FFF) :
    ∃ w, chrWindow s a = some w := by
  refine findWindow_isSome ?_
  split
  · exact chrTiles_exactly_one (ProfileData.tiled_chr h 1) ha
  · exact chrTiles_exactly_one (ProfileData.tiled_chr h 0) ha

end Machine

theorem bankCount_pos (storeSize windowSize : Nat) : 0 < bankCount storeSize windowSize := by
  simp [bankCount]

theorem Window.bank_lt {n : Nat} (w : Window n) (regs : Vector Byte n) (storeSize : Nat) :
    w.bank regs storeSize < bankCount storeSize w.size := Nat.mod_lt _ (bankCount_pos _ _)

/-- When a decode wraps (R130). -/
theorem Window.wraps_iff {n : Nat} (w : Window n) (regs : Vector Byte n) (storeSize a : Nat) :
    w.wraps regs storeSize a = true ↔
      bankCount storeSize w.size ≤ w.raw regs storeSize ∨ storeSize ≤ w.bank regs storeSize * w.size + (a - w.base) := by
  unfold Window.wraps
  rw [Bool.or_eq_true, decide_eq_true_iff, decide_eq_true_iff]
  rfl

theorem Window.offset_lt {n : Nat} (w : Window n) (regs : Vector Byte n) {storeSize : Nat} (a : Nat)
    (h : 0 < storeSize) : w.offset regs storeSize a < storeSize := Nat.mod_lt _ h

/-! ## Serial target maps -/

/-- The address has the known bits. -/
def agrees (known : List (Fin 16 × Bool)) (a : Addr) : Prop := ∀ bit b, known.lookup bit = some b → a.getLsbD bit = b

theorem agrees_cons {known : List (Fin 16 × Bool)} {bit : Fin 16} {b : Bool} {a : Addr}
    (hn : known.lookup bit = none) : agrees ((bit, b) :: known) a ↔ a.getLsbD bit = b ∧ agrees known a := by
  constructor
  · refine fun h => ⟨h bit b (by simp [List.lookup]), fun c d hc => h c d ?_⟩
    have : c ≠ bit := by rintro rfl; rw [hn] at hc; exact absurd hc (by simp)
    rw [List.lookup_cons, beq_eq_false_iff_ne.2 this]; exact hc
  · rintro ⟨h1, h2⟩ c d hc
    rw [List.lookup_cons] at hc
    split at hc
    · next e => rw [eq_of_beq e, h1]; exact Option.some.inj hc
    · exact h2 c d hc

/-- Some address has the known bits. -/
theorem agrees_exists (known : List (Fin 16 × Bool)) : ∃ a : Addr, agrees known a :=
  ⟨BitVec.ofFnLE (fun i => (known.lookup i).getD false), fun bit b h => by
    rw [BitVec.getLsbD_ofFnLE]; simp [h]⟩

/-- `covers` holds exactly when every address with the known bits has a target (R105 W6). -/
theorem RawTargetMap.covers_iff (m : RawTargetMap) (known : List (Fin 16 × Bool)) :
    m.covers known = true ↔ ∀ a, agrees known a → ∃ t, m.lookup a = some t := by
  induction m generalizing known with
  | undefined =>
    obtain ⟨a, ha⟩ := agrees_exists known
    exact ⟨fun h => absurd h (by simp [covers]), fun h => absurd (h a ha) (by simp [lookup])⟩
  | target t => simp [covers, lookup]
  | split bit zero one ihz iho =>
    unfold covers lookup
    split
    · next b hb =>
      cases b
      · simp only [Bool.false_eq_true, if_false, ihz]
        exact forall₂_congr fun a ha => by rw [if_neg (by rw [ha _ _ hb]; decide)]
      · simp only [if_true, iho]
        exact forall₂_congr fun a ha => by rw [if_pos (ha _ _ hb)]
    · next hn =>
      rw [Bool.and_eq_true, ihz, iho]
      constructor
      · rintro ⟨hz, ho⟩ a ha
        cases hb : a.getLsbD bit
        · rw [if_neg (by decide)]; exact hz a ((agrees_cons hn).2 ⟨hb, ha⟩)
        · rw [if_pos rfl]; exact ho a ((agrees_cons hn).2 ⟨hb, ha⟩)
      · refine fun h => ⟨fun a ha => ?_, fun a ha => ?_⟩
        · have := (agrees_cons hn).1 ha
          have h := h a this.2
          rwa [this.1, if_neg (by decide)] at h
        · have := (agrees_cons hn).1 ha
          have h := h a this.2
          rwa [this.1, if_pos rfl] at h

/-- W6 of R105, by the addresses it names. -/
theorem RawProfile.w6_iff (r : RawProfile) : r.w6 = true ↔
    (r.serial = true → ∀ a : Addr, 0x8000 ≤ a.toNat → ∃ t, r.serialTarget.lookup a = some t) := by
  have e : ∀ a : Addr, agrees [(15, true)] a ↔ 0x8000 ≤ a.toNat := fun a => by
    rw [agrees_cons rfl]
    have : agrees [] a := nofun
    simp only [this, and_true]
    change a.getLsbD 15 = true ↔ _
    rw [BitVec.getLsbD, Nat.testBit_eq_decide_div_mod_eq]
    have := a.isLt
    simp; omega
  simp only [RawProfile.w6, Bool.or_eq_true, Bool.not_eq_true', RawTargetMap.covers_iff, e]
  cases r.serial <;> simp

theorem RawTargetMap.lookup_toMap {m : RawTargetMap} {a : Addr} {t : Target} (h : m.lookup a = some t) :
    m.toMap.lookup a = t := by
  induction m with
  | undefined => exact absurd h (by simp [lookup])
  | target t' => exact Option.some.inj h
  | split bit zero one ihz iho =>
    simp only [lookup] at h
    simp only [toMap, TargetMap.lookup]
    split at h
    · next hb => rw [if_pos hb]; exact iho h
    · next hb => rw [if_neg hb]; exact ihz h

end Sys2Proof
end

