-- ==== Sys2Proof/Laws/Decode.lean ====
section
/-! SUPPORT. The fields of a transaction word, and the address and data patterns of the second-level rows. -/

namespace Sys2Proof

@[simp] theorem kindField_mkWord (k : BitVec 4) (a : Addr) (d : Byte) : kindField (mkWord k a d) = k := by
  apply BitVec.eq_of_getLsbD_eq; intro i hi
  simp only [kindField, mkWord, BitVec.getLsbD_extractLsb', BitVec.getLsbD_append]
  interval_cases i <;> simp

@[simp] theorem rsvField_mkWord (k : BitVec 4) (a : Addr) (d : Byte) : rsvField (mkWord k a d) = 0#4 := by
  apply BitVec.eq_of_getLsbD_eq; intro i hi
  simp only [rsvField, mkWord, BitVec.getLsbD_extractLsb', BitVec.getLsbD_append]
  interval_cases i <;> simp

@[simp] theorem a16Field_mkWord (k : BitVec 4) (a : Addr) (d : Byte) : a16Field (mkWord k a d) = a := by
  apply BitVec.eq_of_getLsbD_eq; intro i hi
  simp only [a16Field, mkWord, BitVec.getLsbD_extractLsb', BitVec.getLsbD_append]
  interval_cases i <;> simp

@[simp] theorem d8Field_mkWord (k : BitVec 4) (a : Addr) (d : Byte) : d8Field (mkWord k a d) = d := by
  apply BitVec.eq_of_getLsbD_eq; intro i hi
  simp only [d8Field, mkWord, BitVec.getLsbD_extractLsb', BitVec.getLsbD_append]
  interval_cases i <;> simp

/-- A word with `rsv = 0` is the word of its fields. -/
theorem mkWord_fields (w : Word) (h : rsvField w = 0#4) :
    mkWord (kindField w) (a16Field w) (d8Field w) = w := by
  rw [mkWord, ← h]
  apply BitVec.eq_of_getLsbD_eq; intro i hi
  simp only [rsvField, kindField, a16Field, d8Field, BitVec.getLsbD_extractLsb', BitVec.getLsbD_append]
  interval_cases i <;> simp

/-! The fields as arithmetic on the word. -/

theorem kindField_toNat (w : Word) : (kindField w).toNat = w.toNat / 2 ^ 28 := by
  simp [kindField, BitVec.extractLsb'_toNat, Nat.shiftRight_eq_div_pow]; omega

theorem rsvField_toNat (w : Word) : (rsvField w).toNat = w.toNat / 2 ^ 24 % 16 := by
  simp [rsvField, BitVec.extractLsb'_toNat, Nat.shiftRight_eq_div_pow]

theorem a16Field_toNat (w : Word) : (a16Field w).toNat = w.toNat / 2 ^ 8 % 65536 := by
  simp [a16Field, BitVec.extractLsb'_toNat, Nat.shiftRight_eq_div_pow]

theorem d8Field_toNat (w : Word) : (d8Field w).toNat = w.toNat % 2 ^ 8 := by
  simp [d8Field, BitVec.extractLsb'_toNat]

/-- The word as a number (R80). -/
theorem mkWord_toNat (k : BitVec 4) (a : Addr) (d : Byte) :
    (mkWord k a d).toNat = k.toNat * 2 ^ 28 + a.toNat * 2 ^ 8 + d.toNat := by
  have h1 := kindField_toNat (mkWord k a d)
  have h2 := rsvField_toNat (mkWord k a d)
  have h3 := a16Field_toNat (mkWord k a d)
  have h4 := d8Field_toNat (mkWord k a d)
  simp only [kindField_mkWord, rsvField_mkWord, a16Field_mkWord, d8Field_mkWord] at h1 h2 h3 h4
  simp at h2
  omega

/-- The fields of a masked word are the masked fields. -/
theorem fields_and (w m : Word) :
    kindField (w &&& m) = kindField w &&& kindField m ∧ rsvField (w &&& m) = rsvField w &&& rsvField m ∧
    a16Field (w &&& m) = a16Field w &&& a16Field m ∧ d8Field (w &&& m) = d8Field w &&& d8Field m := by
  simp [kindField, rsvField, a16Field, d8Field, BitVec.extractLsb'_and]

/-- What the decoder does with a word of given fields. -/
theorem decode_mkWord (p : Profile) (k : BitVec 4) (a : Addr) (d : Byte) :
    decode p (mkWord k a d) = if 0xE ≤ k.toNat then .error .reservedKind else decodeKind p k.toNat a d := by
  simp [decode]

/-- The fields of two equal words are equal. -/
theorem mkWord_inj {k k' : BitVec 4} {a a' : Addr} {d d' : Byte} (h : mkWord k a d = mkWord k' a' d') :
    k = k' ∧ a = a' ∧ d = d' :=
  ⟨by simpa using congrArg kindField h, by simpa using congrArg a16Field h, by simpa using congrArg d8Field h⟩

/-- Bit 7 of a data byte, as the pattern of the serial rows (R88). -/
theorem bit7_iff : ∀ v : Byte, v.getLsbD 7 = true ↔ v &&& 0x80#8 = 0x80#8 := by decide

/-- Bit 7 clear, as the pattern of the serial shift rows (R88). -/
theorem bit7_clear_iff : ∀ v : Byte, v.getLsbD 7 = false ↔ v &&& 0x80#8 = 0#8 := by decide

/-! ## Address and data patterns as arithmetic

A row's pattern `x &&& mask = match` is turned into quotients and remainders of `x.toNat`, so that `omega` decides which
rows an address falls in. -/

theorem toNat_and_8000 (x : Addr) : (x &&& 0x8000#16).toNat = x.toNat / 0x8000 * 0x8000 := by
  have h : x &&& 0x8000#16 = BitVec.ofNat 16 (x.toNat / 2 ^ 15 * 2 ^ 15) := by
    apply BitVec.eq_of_getLsbD_eq; intro i hi
    simp only [BitVec.getLsbD_and, BitVec.getLsbD_ofNat, Nat.testBit_mul_two_pow, Nat.testBit_div_two_pow]
    interval_cases i <;> simp [BitVec.getLsbD] <;> exact fun _ => by decide
  rw [h, BitVec.toNat_ofNat]
  omega

theorem toNat_and_E000 (x : Addr) : (x &&& 0xE000#16).toNat = x.toNat / 0x2000 * 0x2000 := by
  have h : x &&& 0xE000#16 = BitVec.ofNat 16 (x.toNat / 2 ^ 13 * 2 ^ 13) := by
    apply BitVec.eq_of_getLsbD_eq; intro i hi
    simp only [BitVec.getLsbD_and, BitVec.getLsbD_ofNat, Nat.testBit_mul_two_pow, Nat.testBit_div_two_pow]
    interval_cases i <;> simp [BitVec.getLsbD] <;> exact fun _ => by decide
  rw [h, BitVec.toNat_ofNat]
  omega

theorem toNat_and_F000 (x : Addr) : (x &&& 0xF000#16).toNat = x.toNat / 0x1000 * 0x1000 := by
  have h : x &&& 0xF000#16 = BitVec.ofNat 16 (x.toNat / 2 ^ 12 * 2 ^ 12) := by
    apply BitVec.eq_of_getLsbD_eq; intro i hi
    simp only [BitVec.getLsbD_and, BitVec.getLsbD_ofNat, Nat.testBit_mul_two_pow, Nat.testBit_div_two_pow]
    interval_cases i <;> simp [BitVec.getLsbD] <;> exact fun _ => by decide
  rw [h, BitVec.toNat_ofNat]
  omega

theorem toNat_and_80 (x : Byte) : (x &&& 0x80#8).toNat = x.toNat / 0x80 * 0x80 := by
  have h : x &&& 0x80#8 = BitVec.ofNat 8 (x.toNat / 2 ^ 7 * 2 ^ 7) := by
    apply BitVec.eq_of_getLsbD_eq; intro i hi
    simp only [BitVec.getLsbD_and, BitVec.getLsbD_ofNat, Nat.testBit_mul_two_pow, Nat.testBit_div_two_pow]
    interval_cases i <;> simp [BitVec.getLsbD] <;> exact fun _ => by decide
  rw [h, BitVec.toNat_ofNat]
  omega

theorem toNat_and_E001 (x : Addr) :
    (x &&& 0xE001#16).toNat = x.toNat / 0x2000 * 0x2000 + x.toNat % 2 := by
  have h : x &&& 0xE001#16 = (x &&& 0xE000#16) ||| (x &&& 1#16) := by rw [← BitVec.and_or_distrib_left]; rfl
  have d : (x &&& 0xE000#16) &&& (x &&& 1#16) = 0#16 := by
    rw [show (x &&& 0xE000#16) &&& (x &&& 1#16) = x &&& x &&& (0xE000#16 &&& 1#16) by ac_rfl]; simp
  have o : (x &&& 1#16).toNat = x.toNat % 2 := by
    rw [BitVec.toNat_and]; exact Nat.and_two_pow_sub_one_eq_mod x.toNat 1
  rw [h, ← BitVec.add_eq_or_of_and_eq_zero _ _ d, BitVec.toNat_add, toNat_and_E000, o]
  omega

theorem toNat_and_F003 (x : Addr) :
    (x &&& 0xF003#16).toNat = x.toNat / 0x1000 * 0x1000 + x.toNat % 4 := by
  have h : x &&& 0xF003#16 = (x &&& 0xF000#16) ||| (x &&& 3#16) := by rw [← BitVec.and_or_distrib_left]; rfl
  have d : (x &&& 0xF000#16) &&& (x &&& 3#16) = 0#16 := by
    rw [show (x &&& 0xF000#16) &&& (x &&& 3#16) = x &&& x &&& (0xF000#16 &&& 3#16) by ac_rfl]; simp
  have o : (x &&& 3#16).toNat = x.toNat % 4 := by
    rw [BitVec.toNat_and]; exact Nat.and_two_pow_sub_one_eq_mod x.toNat 2
  rw [h, ← BitVec.add_eq_or_of_and_eq_zero _ _ d, BitVec.toNat_add, toNat_and_F000, o]
  omega

theorem and_8000_eq_iff (x c : Addr) : x &&& 0x8000#16 = c ↔ x.toNat / 0x8000 * 0x8000 = c.toNat := by
  rw [← BitVec.toNat_inj, toNat_and_8000]

theorem and_E000_eq_iff (x c : Addr) : x &&& 0xE000#16 = c ↔ x.toNat / 0x2000 * 0x2000 = c.toNat := by
  rw [← BitVec.toNat_inj, toNat_and_E000]

theorem and_F000_eq_iff (x c : Addr) : x &&& 0xF000#16 = c ↔ x.toNat / 0x1000 * 0x1000 = c.toNat := by
  rw [← BitVec.toNat_inj, toNat_and_F000]

theorem and_E001_eq_iff (x c : Addr) : x &&& 0xE001#16 = c ↔ x.toNat / 0x2000 * 0x2000 + x.toNat % 2 = c.toNat := by
  rw [← BitVec.toNat_inj, toNat_and_E001]

theorem and_F003_eq_iff (x c : Addr) : x &&& 0xF003#16 = c ↔ x.toNat / 0x1000 * 0x1000 + x.toNat % 4 = c.toNat := by
  rw [← BitVec.toNat_inj, toNat_and_F003]

theorem and_80_eq_iff (x c : Byte) : x &&& 0x80#8 = c ↔ x.toNat / 0x80 * 0x80 = c.toNat := by
  rw [← BitVec.toNat_inj, toNat_and_80]

end Sys2Proof
end

