-- ==== Sys2Proof/Laws/Memory.lean ====
section
/-! SUPPORT. The laws of a store: what a read gives after a write, and that every operation keeps the canonical form
and the size. -/

namespace Sys2Proof

@[simp] theorem Memory.read_nil (o : Nat) : Memory.read [] o = Memory.unlisted := rfl

theorem Memory.read_cons (c : Host.Cell) (m : Memory) (o : Nat) :
    Memory.read (c :: m) o = if o = c.1 then c.2 else m.read o := rfl

theorem Memory.nil_wf : Memory.wf [] := ⟨List.Pairwise.nil, by simp⟩

/-- The form holds of a list exactly when its head's entry is listed, lies below the rest, and the rest has it. -/
theorem Memory.wf_cons (c : Host.Cell) (m : Memory) :
    Memory.wf (c :: m) ↔ (∀ d ∈ m, c.1 < d.1) ∧ c.2 ≠ Memory.unlisted ∧ Memory.wf m := by
  simp only [Memory.wf, List.pairwise_cons, List.mem_cons, forall_eq_or_imp]
  tauto

/-- An offset that no entry lists reads as unlisted. -/
theorem Memory.read_of_forall_ne {m : Memory} {o : Nat} (h : ∀ c ∈ m, o ≠ c.1) : m.read o = Memory.unlisted := by
  induction m with
  | nil => rfl
  | cons c m ih =>
    have hc : o ≠ c.1 := h c (by simp)
    rw [Memory.read_cons, if_neg hc, ih (fun d hd => h d (by simp [hd]))]

/-- A write leaves every other offset as it was. -/
theorem Memory.read_write_other (m : Memory) {o o' : Nat} (v : Byte) (h : o' ≠ o) :
    (m.write o v).read o' = m.read o' := by
  induction m with
  | nil => unfold Memory.write; split <;> simp [Memory.read_cons, h]
  | cons c m ih =>
    unfold Memory.write
    split
    · split <;> simp [Memory.read_cons, h]
    · split
      · next hc => split <;> simp [Memory.read_cons, ← hc, h]
      · simp [Memory.read_cons, ih]

/-- A read after a write to the same offset gives the value written. -/
theorem Memory.read_write_same {m : Memory} (hm : m.wf) (o : Nat) (v : Byte) : (m.write o v).read o = v := by
  induction m with
  | nil => unfold Memory.write; split <;> simp_all [Memory.read_cons]
  | cons c m ih =>
    obtain ⟨hlow, -, hm'⟩ := (Memory.wf_cons c m).mp hm
    unfold Memory.write
    split
    · next hlt =>
      split
      · next hv =>
        rw [hv]
        refine Memory.read_of_forall_ne fun d hd => ?_
        rcases List.mem_cons.mp hd with rfl | hd
        · omega
        · have := hlow d hd; omega
      · simp [Memory.read_cons]
    · split
      · next heq =>
        split
        · next hv =>
          rw [hv]
          refine Memory.read_of_forall_ne fun d hd => ?_
          have := hlow d hd; omega
        · simp [Memory.read_cons]
      · next hne => rw [Memory.read_cons, if_neg hne, ih hm']

/-- An entry of the store after a write is the written cell or was there before. -/
theorem Memory.mem_write {m : Memory} {o : Nat} {v : Byte} {c : Host.Cell} (h : c ∈ m.write o v) :
    (c = (o, v) ∧ v ≠ Memory.unlisted) ∨ c ∈ m := by
  induction m with
  | nil => unfold Memory.write at h; split at h <;> simp_all
  | cons d m ih =>
    unfold Memory.write at h
    split at h
    · split at h
      · exact .inr h
      · rcases List.mem_cons.mp h with h | h
        · exact .inl ⟨h, by assumption⟩
        · exact .inr h
    · split at h
      · split at h
        · exact .inr (List.mem_cons_of_mem _ h)
        · rcases List.mem_cons.mp h with h | h
          · exact .inl ⟨h, by assumption⟩
          · exact .inr (List.mem_cons_of_mem _ h)
      · rcases List.mem_cons.mp h with h | h
        · exact .inr (h ▸ List.mem_cons_self)
        · rcases ih h with h | h
          · exact .inl h
          · exact .inr (List.mem_cons_of_mem _ h)

/-- A write keeps the canonical form. -/
theorem Memory.write_wf {m : Memory} (hm : m.wf) (o : Nat) (v : Byte) : (m.write o v).wf := by
  induction m with
  | nil =>
    unfold Memory.write
    split
    · exact Memory.nil_wf
    · next hv => exact (Memory.wf_cons _ _).mpr ⟨by simp, hv, Memory.nil_wf⟩
  | cons c m ih =>
    obtain ⟨hlow, hc, hm'⟩ := (Memory.wf_cons c m).mp hm
    unfold Memory.write
    split
    · next hlt =>
      split
      · exact hm
      · next hv =>
        refine (Memory.wf_cons _ _).mpr ⟨fun d hd => ?_, hv, hm⟩
        rcases List.mem_cons.mp hd with rfl | hd
        · exact hlt
        · have := hlow d hd; simp only; omega
    · split
      · next heq =>
        split
        · exact hm'
        · next hv => exact (Memory.wf_cons _ _).mpr ⟨fun d hd => by have := hlow d hd; simp only; omega, hv, hm'⟩
      · next hge hne =>
        refine (Memory.wf_cons _ _).mpr ⟨fun d hd => ?_, hc, ih hm'⟩
        rcases Memory.mem_write hd with ⟨rfl, -⟩ | hd
        · simp only; omega
        · exact hlow d hd

/-- A write inside the store keeps its size. -/
theorem Memory.write_within {m : Memory} {size o : Nat} (hm : m.within size) (ho : o < size) (v : Byte) :
    (m.write o v).within size := by
  intro c hc
  rcases Memory.mem_write hc with ⟨rfl, -⟩ | hc
  · exact ho
  · exact hm c hc

/-- What a store made of cells reads as: the last cell listed for the offset, inside the size. -/
theorem Memory.read_ofCells (size : Nat) (cells : List Host.Cell) (o : Nat) :
    (Memory.ofCells size cells).read o =
      if o < size then ((cells.reverse.find? (fun c => c.1 == o)).map (·.2)).getD 0 else 0 := by
  suffices h : ∀ m : Memory, m.wf →
      Memory.read (cells.foldl (fun (m : Memory) c => if c.1 < size then m.write c.1 c.2 else m) m) o =
        if o < size then ((cells.reverse.find? (fun c => c.1 == o)).map (·.2)).getD (m.read o) else m.read o from
    h [] Memory.nil_wf
  induction cells with
  | nil => intro m _; simp
  | cons c cells ih =>
    intro m hm
    rw [List.foldl_cons, ih _ (by split <;> [exact Memory.write_wf hm _ _; exact hm]), List.reverse_cons,
      List.find?_append]
    by_cases hc : c.1 < size
    · rw [if_pos hc]
      by_cases ho : o = c.1
      · subst ho
        rw [Memory.read_write_same hm]
        cases (cells.reverse.find? fun d => d.1 == c.1) <;> simp [hc]
      · rw [Memory.read_write_other m c.2 ho, List.find?_cons_of_neg (by simpa using Ne.symm ho)]
        simp
    · rw [if_neg hc]
      by_cases ho : o < size
      · rw [if_pos ho, if_pos ho, List.find?_cons_of_neg (by simp; omega)]
        simp
      · rw [if_neg ho, if_neg ho]

/-- The loader's and the draws' cells become a store in canonical form and of the given size. -/
theorem Memory.ofCells_wf_within (size : Nat) (cells : List Host.Cell) :
    (Memory.ofCells size cells).wf ∧ (Memory.ofCells size cells).within size := by
  unfold Memory.ofCells
  suffices h : ∀ m : Memory, m.wf ∧ m.within size →
      (cells.foldl (fun (m : Memory) c => if c.1 < size then m.write c.1 c.2 else m) m).wf ∧
      (cells.foldl (fun (m : Memory) c => if c.1 < size then m.write c.1 c.2 else m) m).within size from
    h [] ⟨Memory.nil_wf, by simp [Memory.within]⟩
  induction cells with
  | nil => exact fun m hm => hm
  | cons c cells ih =>
    intro m hm
    rw [List.foldl_cons]
    apply ih
    split
    · next hlt => exact ⟨Memory.write_wf hm.1 _ _, Memory.write_within hm.2 hlt _⟩
    · exact hm

/-- Writing a byte above every listed offset appends it. -/
theorem Memory.write_append {m : Memory} {c : Host.Cell} (h : ∀ d ∈ m, d.1 < c.1) (hc : c.2 ≠ Memory.unlisted) :
    m.write c.1 c.2 = m ++ [c] := by
  induction m with
  | nil => simp [Memory.write, hc]
  | cons d m ih =>
    have hd : d.1 < c.1 := h d (by simp)
    simp only [Memory.write]
    rw [if_neg (by omega), if_neg (by omega), ih fun e he => h e (by simp [he])]
    rfl

/-- A store in canonical form, written cell by cell, is itself: every store is what its cells make (R106). -/
theorem Memory.ofCells_self {m : Memory} {size : Nat} (hm : m.wf) (hs : m.within size) :
    Memory.ofCells size m = m := by
  suffices h : ∀ m acc : Memory, Memory.wf (acc ++ m) → Memory.within (acc ++ m) size →
      m.foldl (fun (m : Memory) c => if c.1 < size then m.write c.1 c.2 else m) acc = acc ++ m from
    h m [] (by simpa using hm) (by simpa using hs)
  intro m
  induction m with
  | nil => intro acc _ _; simp
  | cons c m ih =>
    intro acc hm hs
    have hp := List.pairwise_append.1 hm.1
    rw [List.foldl_cons, if_pos (hs c (by simp)),
      Memory.write_append (fun d hd => hp.2.2 d hd c (by simp)) (hm.2 c (by simp)),
      ih (acc ++ [c]) (by simpa using hm) (by simpa using hs)]
    simp

end Sys2Proof
end

