-- ==== Sys2Proof/Laws/State.lean ====
section
/-! SUPPORT. Reading a field after a named update of Machine/Ops.lean: one rule per field and update, each true by
unfolding the update once. They are gathered by update (`simp` takes each conjunct as a rule of its own), so that no
proof unfolds an update again. -/

namespace Sys2Proof.Machine

@[simp] theorem State.setPrgBank_fields (s : State) (i : Fin 4) (v : Byte) :
    (s.setPrgBank i v).cfg = s.cfg ∧ (s.setPrgBank i v).prgBank = s.prgBank.set i v ∧
    (s.setPrgBank i v).chrBank = s.chrBank ∧ (s.setPrgBank i v).sel = s.sel ∧
    (s.setPrgBank i v).prgMode = s.prgMode ∧ (s.setPrgBank i v).chrMode = s.chrMode ∧
    (s.setPrgBank i v).mirrorField = s.mirrorField ∧ (s.setPrgBank i v).ramEnable = s.ramEnable ∧
    (s.setPrgBank i v).ramProtect = s.ramProtect ∧ (s.setPrgBank i v).dirty = s.dirty ∧
    (s.setPrgBank i v).shift = s.shift ∧ (s.setPrgBank i v).count = s.count ∧
    (s.setPrgBank i v).irqLatch = s.irqLatch ∧ (s.setPrgBank i v).irqCounter = s.irqCounter ∧
    (s.setPrgBank i v).irqEnable = s.irqEnable ∧ (s.setPrgBank i v).irqPending = s.irqPending ∧
    (s.setPrgBank i v).irqReload = s.irqReload ∧ (s.setPrgBank i v).countMode = s.countMode ∧
    (s.setPrgBank i v).edgePrev = s.edgePrev ∧ (s.setPrgBank i v).diagSizeMismatch = s.diagSizeMismatch ∧
    (s.setPrgBank i v).chrMem = s.chrMem ∧ (s.setPrgBank i v).prgRam = s.prgRam ∧
    (s.setPrgBank i v).stream = s.stream ∧ (s.setPrgBank i v).position = s.position ∧
    (s.setPrgBank i v).response = s.response ∧ (s.setPrgBank i v).diag = s.diag := by
  and_intros <;> rfl

@[simp] theorem State.setChrBank_fields (s : State) (j : Fin 8) (v : Byte) :
    (s.setChrBank j v).cfg = s.cfg ∧ (s.setChrBank j v).prgBank = s.prgBank ∧
    (s.setChrBank j v).chrBank = s.chrBank.set j v ∧ (s.setChrBank j v).sel = s.sel ∧
    (s.setChrBank j v).prgMode = s.prgMode ∧ (s.setChrBank j v).chrMode = s.chrMode ∧
    (s.setChrBank j v).mirrorField = s.mirrorField ∧ (s.setChrBank j v).ramEnable = s.ramEnable ∧
    (s.setChrBank j v).ramProtect = s.ramProtect ∧ (s.setChrBank j v).dirty = s.dirty ∧
    (s.setChrBank j v).shift = s.shift ∧ (s.setChrBank j v).count = s.count ∧
    (s.setChrBank j v).irqLatch = s.irqLatch ∧ (s.setChrBank j v).irqCounter = s.irqCounter ∧
    (s.setChrBank j v).irqEnable = s.irqEnable ∧ (s.setChrBank j v).irqPending = s.irqPending ∧
    (s.setChrBank j v).irqReload = s.irqReload ∧ (s.setChrBank j v).countMode = s.countMode ∧
    (s.setChrBank j v).edgePrev = s.edgePrev ∧ (s.setChrBank j v).diagSizeMismatch = s.diagSizeMismatch ∧
    (s.setChrBank j v).chrMem = s.chrMem ∧ (s.setChrBank j v).prgRam = s.prgRam ∧
    (s.setChrBank j v).stream = s.stream ∧ (s.setChrBank j v).position = s.position ∧
    (s.setChrBank j v).response = s.response ∧ (s.setChrBank j v).diag = s.diag := by
  and_intros <;> rfl

@[simp] theorem State.setSel_fields (s : State) (v : BitVec 3) :
    (s.setSel v).cfg = s.cfg ∧ (s.setSel v).prgBank = s.prgBank ∧ (s.setSel v).chrBank = s.chrBank ∧
    (s.setSel v).sel = v ∧ (s.setSel v).prgMode = s.prgMode ∧ (s.setSel v).chrMode = s.chrMode ∧
    (s.setSel v).mirrorField = s.mirrorField ∧ (s.setSel v).ramEnable = s.ramEnable ∧
    (s.setSel v).ramProtect = s.ramProtect ∧ (s.setSel v).dirty = s.dirty ∧ (s.setSel v).shift = s.shift ∧
    (s.setSel v).count = s.count ∧ (s.setSel v).irqLatch = s.irqLatch ∧ (s.setSel v).irqCounter = s.irqCounter ∧
    (s.setSel v).irqEnable = s.irqEnable ∧ (s.setSel v).irqPending = s.irqPending ∧
    (s.setSel v).irqReload = s.irqReload ∧ (s.setSel v).countMode = s.countMode ∧
    (s.setSel v).edgePrev = s.edgePrev ∧ (s.setSel v).diagSizeMismatch = s.diagSizeMismatch ∧
    (s.setSel v).chrMem = s.chrMem ∧ (s.setSel v).prgRam = s.prgRam ∧ (s.setSel v).stream = s.stream ∧
    (s.setSel v).position = s.position ∧ (s.setSel v).response = s.response ∧ (s.setSel v).diag = s.diag := by
  and_intros <;> rfl

@[simp] theorem State.setPrgMode_fields (s : State) (m : BitVec 2) :
    (s.setPrgMode m).cfg = s.cfg ∧ (s.setPrgMode m).prgBank = s.prgBank ∧ (s.setPrgMode m).chrBank = s.chrBank ∧
    (s.setPrgMode m).sel = s.sel ∧ (s.setPrgMode m).prgMode = m ∧ (s.setPrgMode m).chrMode = s.chrMode ∧
    (s.setPrgMode m).mirrorField = s.mirrorField ∧ (s.setPrgMode m).ramEnable = s.ramEnable ∧
    (s.setPrgMode m).ramProtect = s.ramProtect ∧ (s.setPrgMode m).dirty = s.dirty ∧
    (s.setPrgMode m).shift = s.shift ∧ (s.setPrgMode m).count = s.count ∧ (s.setPrgMode m).irqLatch = s.irqLatch ∧
    (s.setPrgMode m).irqCounter = s.irqCounter ∧ (s.setPrgMode m).irqEnable = s.irqEnable ∧
    (s.setPrgMode m).irqPending = s.irqPending ∧ (s.setPrgMode m).irqReload = s.irqReload ∧
    (s.setPrgMode m).countMode = s.countMode ∧ (s.setPrgMode m).edgePrev = s.edgePrev ∧
    (s.setPrgMode m).diagSizeMismatch = s.diagSizeMismatch ∧ (s.setPrgMode m).chrMem = s.chrMem ∧
    (s.setPrgMode m).prgRam = s.prgRam ∧ (s.setPrgMode m).stream = s.stream ∧
    (s.setPrgMode m).position = s.position ∧ (s.setPrgMode m).response = s.response ∧
    (s.setPrgMode m).diag = s.diag := by
  and_intros <;> rfl

@[simp] theorem State.setChrMode_fields (s : State) (b : Bool) :
    (s.setChrMode b).cfg = s.cfg ∧ (s.setChrMode b).prgBank = s.prgBank ∧ (s.setChrMode b).chrBank = s.chrBank ∧
    (s.setChrMode b).sel = s.sel ∧ (s.setChrMode b).prgMode = s.prgMode ∧ (s.setChrMode b).chrMode = b ∧
    (s.setChrMode b).mirrorField = s.mirrorField ∧ (s.setChrMode b).ramEnable = s.ramEnable ∧
    (s.setChrMode b).ramProtect = s.ramProtect ∧ (s.setChrMode b).dirty = s.dirty ∧
    (s.setChrMode b).shift = s.shift ∧ (s.setChrMode b).count = s.count ∧ (s.setChrMode b).irqLatch = s.irqLatch ∧
    (s.setChrMode b).irqCounter = s.irqCounter ∧ (s.setChrMode b).irqEnable = s.irqEnable ∧
    (s.setChrMode b).irqPending = s.irqPending ∧ (s.setChrMode b).irqReload = s.irqReload ∧
    (s.setChrMode b).countMode = s.countMode ∧ (s.setChrMode b).edgePrev = s.edgePrev ∧
    (s.setChrMode b).diagSizeMismatch = s.diagSizeMismatch ∧ (s.setChrMode b).chrMem = s.chrMem ∧
    (s.setChrMode b).prgRam = s.prgRam ∧ (s.setChrMode b).stream = s.stream ∧
    (s.setChrMode b).position = s.position ∧ (s.setChrMode b).response = s.response ∧
    (s.setChrMode b).diag = s.diag := by
  and_intros <;> rfl

@[simp] theorem State.setMirrorField_fields (s : State) (f : BitVec 2) :
    (s.setMirrorField f).cfg = s.cfg ∧ (s.setMirrorField f).prgBank = s.prgBank ∧
    (s.setMirrorField f).chrBank = s.chrBank ∧ (s.setMirrorField f).sel = s.sel ∧
    (s.setMirrorField f).prgMode = s.prgMode ∧ (s.setMirrorField f).chrMode = s.chrMode ∧
    (s.setMirrorField f).mirrorField = f ∧ (s.setMirrorField f).ramEnable = s.ramEnable ∧
    (s.setMirrorField f).ramProtect = s.ramProtect ∧ (s.setMirrorField f).dirty = s.dirty ∧
    (s.setMirrorField f).shift = s.shift ∧ (s.setMirrorField f).count = s.count ∧
    (s.setMirrorField f).irqLatch = s.irqLatch ∧ (s.setMirrorField f).irqCounter = s.irqCounter ∧
    (s.setMirrorField f).irqEnable = s.irqEnable ∧ (s.setMirrorField f).irqPending = s.irqPending ∧
    (s.setMirrorField f).irqReload = s.irqReload ∧ (s.setMirrorField f).countMode = s.countMode ∧
    (s.setMirrorField f).edgePrev = s.edgePrev ∧ (s.setMirrorField f).diagSizeMismatch = s.diagSizeMismatch ∧
    (s.setMirrorField f).chrMem = s.chrMem ∧ (s.setMirrorField f).prgRam = s.prgRam ∧
    (s.setMirrorField f).stream = s.stream ∧ (s.setMirrorField f).position = s.position ∧
    (s.setMirrorField f).response = s.response ∧ (s.setMirrorField f).diag = s.diag := by
  and_intros <;> rfl

@[simp] theorem State.setRamEnable_fields (s : State) (b : Bool) :
    (s.setRamEnable b).cfg = s.cfg ∧ (s.setRamEnable b).prgBank = s.prgBank ∧
    (s.setRamEnable b).chrBank = s.chrBank ∧ (s.setRamEnable b).sel = s.sel ∧
    (s.setRamEnable b).prgMode = s.prgMode ∧ (s.setRamEnable b).chrMode = s.chrMode ∧
    (s.setRamEnable b).mirrorField = s.mirrorField ∧ (s.setRamEnable b).ramEnable = b ∧
    (s.setRamEnable b).ramProtect = s.ramProtect ∧ (s.setRamEnable b).dirty = s.dirty ∧
    (s.setRamEnable b).shift = s.shift ∧ (s.setRamEnable b).count = s.count ∧
    (s.setRamEnable b).irqLatch = s.irqLatch ∧ (s.setRamEnable b).irqCounter = s.irqCounter ∧
    (s.setRamEnable b).irqEnable = s.irqEnable ∧ (s.setRamEnable b).irqPending = s.irqPending ∧
    (s.setRamEnable b).irqReload = s.irqReload ∧ (s.setRamEnable b).countMode = s.countMode ∧
    (s.setRamEnable b).edgePrev = s.edgePrev ∧ (s.setRamEnable b).diagSizeMismatch = s.diagSizeMismatch ∧
    (s.setRamEnable b).chrMem = s.chrMem ∧ (s.setRamEnable b).prgRam = s.prgRam ∧
    (s.setRamEnable b).stream = s.stream ∧ (s.setRamEnable b).position = s.position ∧
    (s.setRamEnable b).response = s.response ∧ (s.setRamEnable b).diag = s.diag := by
  and_intros <;> rfl

@[simp] theorem State.setRamProtect_fields (s : State) (b : Bool) :
    (s.setRamProtect b).cfg = s.cfg ∧ (s.setRamProtect b).prgBank = s.prgBank ∧
    (s.setRamProtect b).chrBank = s.chrBank ∧ (s.setRamProtect b).sel = s.sel ∧
    (s.setRamProtect b).prgMode = s.prgMode ∧ (s.setRamProtect b).chrMode = s.chrMode ∧
    (s.setRamProtect b).mirrorField = s.mirrorField ∧ (s.setRamProtect b).ramEnable = s.ramEnable ∧
    (s.setRamProtect b).ramProtect = b ∧ (s.setRamProtect b).dirty = s.dirty ∧ (s.setRamProtect b).shift = s.shift ∧
    (s.setRamProtect b).count = s.count ∧ (s.setRamProtect b).irqLatch = s.irqLatch ∧
    (s.setRamProtect b).irqCounter = s.irqCounter ∧ (s.setRamProtect b).irqEnable = s.irqEnable ∧
    (s.setRamProtect b).irqPending = s.irqPending ∧ (s.setRamProtect b).irqReload = s.irqReload ∧
    (s.setRamProtect b).countMode = s.countMode ∧ (s.setRamProtect b).edgePrev = s.edgePrev ∧
    (s.setRamProtect b).diagSizeMismatch = s.diagSizeMismatch ∧ (s.setRamProtect b).chrMem = s.chrMem ∧
    (s.setRamProtect b).prgRam = s.prgRam ∧ (s.setRamProtect b).stream = s.stream ∧
    (s.setRamProtect b).position = s.position ∧ (s.setRamProtect b).response = s.response ∧
    (s.setRamProtect b).diag = s.diag := by
  and_intros <;> rfl

@[simp] theorem State.setDirty_fields (s : State) (b : Bool) :
    (s.setDirty b).cfg = s.cfg ∧ (s.setDirty b).prgBank = s.prgBank ∧ (s.setDirty b).chrBank = s.chrBank ∧
    (s.setDirty b).sel = s.sel ∧ (s.setDirty b).prgMode = s.prgMode ∧ (s.setDirty b).chrMode = s.chrMode ∧
    (s.setDirty b).mirrorField = s.mirrorField ∧ (s.setDirty b).ramEnable = s.ramEnable ∧
    (s.setDirty b).ramProtect = s.ramProtect ∧ (s.setDirty b).dirty = b ∧ (s.setDirty b).shift = s.shift ∧
    (s.setDirty b).count = s.count ∧ (s.setDirty b).irqLatch = s.irqLatch ∧
    (s.setDirty b).irqCounter = s.irqCounter ∧ (s.setDirty b).irqEnable = s.irqEnable ∧
    (s.setDirty b).irqPending = s.irqPending ∧ (s.setDirty b).irqReload = s.irqReload ∧
    (s.setDirty b).countMode = s.countMode ∧ (s.setDirty b).edgePrev = s.edgePrev ∧
    (s.setDirty b).diagSizeMismatch = s.diagSizeMismatch ∧ (s.setDirty b).chrMem = s.chrMem ∧
    (s.setDirty b).prgRam = s.prgRam ∧ (s.setDirty b).stream = s.stream ∧ (s.setDirty b).position = s.position ∧
    (s.setDirty b).response = s.response ∧ (s.setDirty b).diag = s.diag := by
  and_intros <;> rfl

@[simp] theorem State.setSerial_fields (s : State) (shift : BitVec 5) (count : BitVec 3) :
    (s.setSerial shift count).cfg = s.cfg ∧ (s.setSerial shift count).prgBank = s.prgBank ∧
    (s.setSerial shift count).chrBank = s.chrBank ∧ (s.setSerial shift count).sel = s.sel ∧
    (s.setSerial shift count).prgMode = s.prgMode ∧ (s.setSerial shift count).chrMode = s.chrMode ∧
    (s.setSerial shift count).mirrorField = s.mirrorField ∧ (s.setSerial shift count).ramEnable = s.ramEnable ∧
    (s.setSerial shift count).ramProtect = s.ramProtect ∧ (s.setSerial shift count).dirty = s.dirty ∧
    (s.setSerial shift count).shift = shift ∧ (s.setSerial shift count).count = count ∧
    (s.setSerial shift count).irqLatch = s.irqLatch ∧ (s.setSerial shift count).irqCounter = s.irqCounter ∧
    (s.setSerial shift count).irqEnable = s.irqEnable ∧ (s.setSerial shift count).irqPending = s.irqPending ∧
    (s.setSerial shift count).irqReload = s.irqReload ∧ (s.setSerial shift count).countMode = s.countMode ∧
    (s.setSerial shift count).edgePrev = s.edgePrev ∧
    (s.setSerial shift count).diagSizeMismatch = s.diagSizeMismatch ∧ (s.setSerial shift count).chrMem = s.chrMem ∧
    (s.setSerial shift count).prgRam = s.prgRam ∧ (s.setSerial shift count).stream = s.stream ∧
    (s.setSerial shift count).position = s.position ∧ (s.setSerial shift count).response = s.response ∧
    (s.setSerial shift count).diag = s.diag := by
  and_intros <;> rfl

@[simp] theorem State.setIrqLatch_fields (s : State) (v : Byte) :
    (s.setIrqLatch v).cfg = s.cfg ∧ (s.setIrqLatch v).prgBank = s.prgBank ∧ (s.setIrqLatch v).chrBank = s.chrBank ∧
    (s.setIrqLatch v).sel = s.sel ∧ (s.setIrqLatch v).prgMode = s.prgMode ∧ (s.setIrqLatch v).chrMode = s.chrMode ∧
    (s.setIrqLatch v).mirrorField = s.mirrorField ∧ (s.setIrqLatch v).ramEnable = s.ramEnable ∧
    (s.setIrqLatch v).ramProtect = s.ramProtect ∧ (s.setIrqLatch v).dirty = s.dirty ∧
    (s.setIrqLatch v).shift = s.shift ∧ (s.setIrqLatch v).count = s.count ∧ (s.setIrqLatch v).irqLatch = v ∧
    (s.setIrqLatch v).irqCounter = s.irqCounter ∧ (s.setIrqLatch v).irqEnable = s.irqEnable ∧
    (s.setIrqLatch v).irqPending = s.irqPending ∧ (s.setIrqLatch v).irqReload = s.irqReload ∧
    (s.setIrqLatch v).countMode = s.countMode ∧ (s.setIrqLatch v).edgePrev = s.edgePrev ∧
    (s.setIrqLatch v).diagSizeMismatch = s.diagSizeMismatch ∧ (s.setIrqLatch v).chrMem = s.chrMem ∧
    (s.setIrqLatch v).prgRam = s.prgRam ∧ (s.setIrqLatch v).stream = s.stream ∧
    (s.setIrqLatch v).position = s.position ∧ (s.setIrqLatch v).response = s.response ∧
    (s.setIrqLatch v).diag = s.diag := by
  and_intros <;> rfl

@[simp] theorem State.setIrqCounter_fields (s : State) (v : Byte) :
    (s.setIrqCounter v).cfg = s.cfg ∧ (s.setIrqCounter v).prgBank = s.prgBank ∧
    (s.setIrqCounter v).chrBank = s.chrBank ∧ (s.setIrqCounter v).sel = s.sel ∧
    (s.setIrqCounter v).prgMode = s.prgMode ∧ (s.setIrqCounter v).chrMode = s.chrMode ∧
    (s.setIrqCounter v).mirrorField = s.mirrorField ∧ (s.setIrqCounter v).ramEnable = s.ramEnable ∧
    (s.setIrqCounter v).ramProtect = s.ramProtect ∧ (s.setIrqCounter v).dirty = s.dirty ∧
    (s.setIrqCounter v).shift = s.shift ∧ (s.setIrqCounter v).count = s.count ∧
    (s.setIrqCounter v).irqLatch = s.irqLatch ∧ (s.setIrqCounter v).irqCounter = v ∧
    (s.setIrqCounter v).irqEnable = s.irqEnable ∧ (s.setIrqCounter v).irqPending = s.irqPending ∧
    (s.setIrqCounter v).irqReload = s.irqReload ∧ (s.setIrqCounter v).countMode = s.countMode ∧
    (s.setIrqCounter v).edgePrev = s.edgePrev ∧ (s.setIrqCounter v).diagSizeMismatch = s.diagSizeMismatch ∧
    (s.setIrqCounter v).chrMem = s.chrMem ∧ (s.setIrqCounter v).prgRam = s.prgRam ∧
    (s.setIrqCounter v).stream = s.stream ∧ (s.setIrqCounter v).position = s.position ∧
    (s.setIrqCounter v).response = s.response ∧ (s.setIrqCounter v).diag = s.diag := by
  and_intros <;> rfl

@[simp] theorem State.setIrqEnable_fields (s : State) (b : Bool) :
    (s.setIrqEnable b).cfg = s.cfg ∧ (s.setIrqEnable b).prgBank = s.prgBank ∧
    (s.setIrqEnable b).chrBank = s.chrBank ∧ (s.setIrqEnable b).sel = s.sel ∧
    (s.setIrqEnable b).prgMode = s.prgMode ∧ (s.setIrqEnable b).chrMode = s.chrMode ∧
    (s.setIrqEnable b).mirrorField = s.mirrorField ∧ (s.setIrqEnable b).ramEnable = s.ramEnable ∧
    (s.setIrqEnable b).ramProtect = s.ramProtect ∧ (s.setIrqEnable b).dirty = s.dirty ∧
    (s.setIrqEnable b).shift = s.shift ∧ (s.setIrqEnable b).count = s.count ∧
    (s.setIrqEnable b).irqLatch = s.irqLatch ∧ (s.setIrqEnable b).irqCounter = s.irqCounter ∧
    (s.setIrqEnable b).irqEnable = b ∧ (s.setIrqEnable b).irqPending = s.irqPending ∧
    (s.setIrqEnable b).irqReload = s.irqReload ∧ (s.setIrqEnable b).countMode = s.countMode ∧
    (s.setIrqEnable b).edgePrev = s.edgePrev ∧ (s.setIrqEnable b).diagSizeMismatch = s.diagSizeMismatch ∧
    (s.setIrqEnable b).chrMem = s.chrMem ∧ (s.setIrqEnable b).prgRam = s.prgRam ∧
    (s.setIrqEnable b).stream = s.stream ∧ (s.setIrqEnable b).position = s.position ∧
    (s.setIrqEnable b).response = s.response ∧ (s.setIrqEnable b).diag = s.diag := by
  and_intros <;> rfl

@[simp] theorem State.setIrqPending_fields (s : State) (b : Bool) :
    (s.setIrqPending b).cfg = s.cfg ∧ (s.setIrqPending b).prgBank = s.prgBank ∧
    (s.setIrqPending b).chrBank = s.chrBank ∧ (s.setIrqPending b).sel = s.sel ∧
    (s.setIrqPending b).prgMode = s.prgMode ∧ (s.setIrqPending b).chrMode = s.chrMode ∧
    (s.setIrqPending b).mirrorField = s.mirrorField ∧ (s.setIrqPending b).ramEnable = s.ramEnable ∧
    (s.setIrqPending b).ramProtect = s.ramProtect ∧ (s.setIrqPending b).dirty = s.dirty ∧
    (s.setIrqPending b).shift = s.shift ∧ (s.setIrqPending b).count = s.count ∧
    (s.setIrqPending b).irqLatch = s.irqLatch ∧ (s.setIrqPending b).irqCounter = s.irqCounter ∧
    (s.setIrqPending b).irqEnable = s.irqEnable ∧ (s.setIrqPending b).irqPending = b ∧
    (s.setIrqPending b).irqReload = s.irqReload ∧ (s.setIrqPending b).countMode = s.countMode ∧
    (s.setIrqPending b).edgePrev = s.edgePrev ∧ (s.setIrqPending b).diagSizeMismatch = s.diagSizeMismatch ∧
    (s.setIrqPending b).chrMem = s.chrMem ∧ (s.setIrqPending b).prgRam = s.prgRam ∧
    (s.setIrqPending b).stream = s.stream ∧ (s.setIrqPending b).position = s.position ∧
    (s.setIrqPending b).response = s.response ∧ (s.setIrqPending b).diag = s.diag := by
  and_intros <;> rfl

@[simp] theorem State.setIrqReload_fields (s : State) (b : Bool) :
    (s.setIrqReload b).cfg = s.cfg ∧ (s.setIrqReload b).prgBank = s.prgBank ∧
    (s.setIrqReload b).chrBank = s.chrBank ∧ (s.setIrqReload b).sel = s.sel ∧
    (s.setIrqReload b).prgMode = s.prgMode ∧ (s.setIrqReload b).chrMode = s.chrMode ∧
    (s.setIrqReload b).mirrorField = s.mirrorField ∧ (s.setIrqReload b).ramEnable = s.ramEnable ∧
    (s.setIrqReload b).ramProtect = s.ramProtect ∧ (s.setIrqReload b).dirty = s.dirty ∧
    (s.setIrqReload b).shift = s.shift ∧ (s.setIrqReload b).count = s.count ∧
    (s.setIrqReload b).irqLatch = s.irqLatch ∧ (s.setIrqReload b).irqCounter = s.irqCounter ∧
    (s.setIrqReload b).irqEnable = s.irqEnable ∧ (s.setIrqReload b).irqPending = s.irqPending ∧
    (s.setIrqReload b).irqReload = b ∧ (s.setIrqReload b).countMode = s.countMode ∧
    (s.setIrqReload b).edgePrev = s.edgePrev ∧ (s.setIrqReload b).diagSizeMismatch = s.diagSizeMismatch ∧
    (s.setIrqReload b).chrMem = s.chrMem ∧ (s.setIrqReload b).prgRam = s.prgRam ∧
    (s.setIrqReload b).stream = s.stream ∧ (s.setIrqReload b).position = s.position ∧
    (s.setIrqReload b).response = s.response ∧ (s.setIrqReload b).diag = s.diag := by
  and_intros <;> rfl

@[simp] theorem State.setCountMode_fields (s : State) (b : Bool) :
    (s.setCountMode b).cfg = s.cfg ∧ (s.setCountMode b).prgBank = s.prgBank ∧
    (s.setCountMode b).chrBank = s.chrBank ∧ (s.setCountMode b).sel = s.sel ∧
    (s.setCountMode b).prgMode = s.prgMode ∧ (s.setCountMode b).chrMode = s.chrMode ∧
    (s.setCountMode b).mirrorField = s.mirrorField ∧ (s.setCountMode b).ramEnable = s.ramEnable ∧
    (s.setCountMode b).ramProtect = s.ramProtect ∧ (s.setCountMode b).dirty = s.dirty ∧
    (s.setCountMode b).shift = s.shift ∧ (s.setCountMode b).count = s.count ∧
    (s.setCountMode b).irqLatch = s.irqLatch ∧ (s.setCountMode b).irqCounter = s.irqCounter ∧
    (s.setCountMode b).irqEnable = s.irqEnable ∧ (s.setCountMode b).irqPending = s.irqPending ∧
    (s.setCountMode b).irqReload = s.irqReload ∧ (s.setCountMode b).countMode = b ∧
    (s.setCountMode b).edgePrev = s.edgePrev ∧ (s.setCountMode b).diagSizeMismatch = s.diagSizeMismatch ∧
    (s.setCountMode b).chrMem = s.chrMem ∧ (s.setCountMode b).prgRam = s.prgRam ∧
    (s.setCountMode b).stream = s.stream ∧ (s.setCountMode b).position = s.position ∧
    (s.setCountMode b).response = s.response ∧ (s.setCountMode b).diag = s.diag := by
  and_intros <;> rfl

@[simp] theorem State.setEdgePrev_fields (s : State) (b : Bool) :
    (s.setEdgePrev b).cfg = s.cfg ∧ (s.setEdgePrev b).prgBank = s.prgBank ∧ (s.setEdgePrev b).chrBank = s.chrBank ∧
    (s.setEdgePrev b).sel = s.sel ∧ (s.setEdgePrev b).prgMode = s.prgMode ∧ (s.setEdgePrev b).chrMode = s.chrMode ∧
    (s.setEdgePrev b).mirrorField = s.mirrorField ∧ (s.setEdgePrev b).ramEnable = s.ramEnable ∧
    (s.setEdgePrev b).ramProtect = s.ramProtect ∧ (s.setEdgePrev b).dirty = s.dirty ∧
    (s.setEdgePrev b).shift = s.shift ∧ (s.setEdgePrev b).count = s.count ∧ (s.setEdgePrev b).irqLatch = s.irqLatch ∧
    (s.setEdgePrev b).irqCounter = s.irqCounter ∧ (s.setEdgePrev b).irqEnable = s.irqEnable ∧
    (s.setEdgePrev b).irqPending = s.irqPending ∧ (s.setEdgePrev b).irqReload = s.irqReload ∧
    (s.setEdgePrev b).countMode = s.countMode ∧ (s.setEdgePrev b).edgePrev = b ∧
    (s.setEdgePrev b).diagSizeMismatch = s.diagSizeMismatch ∧ (s.setEdgePrev b).chrMem = s.chrMem ∧
    (s.setEdgePrev b).prgRam = s.prgRam ∧ (s.setEdgePrev b).stream = s.stream ∧
    (s.setEdgePrev b).position = s.position ∧ (s.setEdgePrev b).response = s.response ∧
    (s.setEdgePrev b).diag = s.diag := by
  and_intros <;> rfl

@[simp] theorem State.setDiagSizeMismatch_fields (s : State) (b : Bool) :
    (s.setDiagSizeMismatch b).cfg = s.cfg ∧ (s.setDiagSizeMismatch b).prgBank = s.prgBank ∧
    (s.setDiagSizeMismatch b).chrBank = s.chrBank ∧ (s.setDiagSizeMismatch b).sel = s.sel ∧
    (s.setDiagSizeMismatch b).prgMode = s.prgMode ∧ (s.setDiagSizeMismatch b).chrMode = s.chrMode ∧
    (s.setDiagSizeMismatch b).mirrorField = s.mirrorField ∧ (s.setDiagSizeMismatch b).ramEnable = s.ramEnable ∧
    (s.setDiagSizeMismatch b).ramProtect = s.ramProtect ∧ (s.setDiagSizeMismatch b).dirty = s.dirty ∧
    (s.setDiagSizeMismatch b).shift = s.shift ∧ (s.setDiagSizeMismatch b).count = s.count ∧
    (s.setDiagSizeMismatch b).irqLatch = s.irqLatch ∧ (s.setDiagSizeMismatch b).irqCounter = s.irqCounter ∧
    (s.setDiagSizeMismatch b).irqEnable = s.irqEnable ∧ (s.setDiagSizeMismatch b).irqPending = s.irqPending ∧
    (s.setDiagSizeMismatch b).irqReload = s.irqReload ∧ (s.setDiagSizeMismatch b).countMode = s.countMode ∧
    (s.setDiagSizeMismatch b).edgePrev = s.edgePrev ∧ (s.setDiagSizeMismatch b).diagSizeMismatch = b ∧
    (s.setDiagSizeMismatch b).chrMem = s.chrMem ∧ (s.setDiagSizeMismatch b).prgRam = s.prgRam ∧
    (s.setDiagSizeMismatch b).stream = s.stream ∧ (s.setDiagSizeMismatch b).position = s.position ∧
    (s.setDiagSizeMismatch b).response = s.response ∧ (s.setDiagSizeMismatch b).diag = s.diag := by
  and_intros <;> rfl

@[simp] theorem State.setChrMem_fields (s : State) (m : Memory) :
    (s.setChrMem m).cfg = s.cfg ∧ (s.setChrMem m).prgBank = s.prgBank ∧ (s.setChrMem m).chrBank = s.chrBank ∧
    (s.setChrMem m).sel = s.sel ∧ (s.setChrMem m).prgMode = s.prgMode ∧ (s.setChrMem m).chrMode = s.chrMode ∧
    (s.setChrMem m).mirrorField = s.mirrorField ∧ (s.setChrMem m).ramEnable = s.ramEnable ∧
    (s.setChrMem m).ramProtect = s.ramProtect ∧ (s.setChrMem m).dirty = s.dirty ∧ (s.setChrMem m).shift = s.shift ∧
    (s.setChrMem m).count = s.count ∧ (s.setChrMem m).irqLatch = s.irqLatch ∧
    (s.setChrMem m).irqCounter = s.irqCounter ∧ (s.setChrMem m).irqEnable = s.irqEnable ∧
    (s.setChrMem m).irqPending = s.irqPending ∧ (s.setChrMem m).irqReload = s.irqReload ∧
    (s.setChrMem m).countMode = s.countMode ∧ (s.setChrMem m).edgePrev = s.edgePrev ∧
    (s.setChrMem m).diagSizeMismatch = s.diagSizeMismatch ∧ (s.setChrMem m).chrMem = m ∧
    (s.setChrMem m).prgRam = s.prgRam ∧ (s.setChrMem m).stream = s.stream ∧ (s.setChrMem m).position = s.position ∧
    (s.setChrMem m).response = s.response ∧ (s.setChrMem m).diag = s.diag := by
  and_intros <;> rfl

@[simp] theorem State.setPrgRam_fields (s : State) (m : Memory) :
    (s.setPrgRam m).cfg = s.cfg ∧ (s.setPrgRam m).prgBank = s.prgBank ∧ (s.setPrgRam m).chrBank = s.chrBank ∧
    (s.setPrgRam m).sel = s.sel ∧ (s.setPrgRam m).prgMode = s.prgMode ∧ (s.setPrgRam m).chrMode = s.chrMode ∧
    (s.setPrgRam m).mirrorField = s.mirrorField ∧ (s.setPrgRam m).ramEnable = s.ramEnable ∧
    (s.setPrgRam m).ramProtect = s.ramProtect ∧ (s.setPrgRam m).dirty = s.dirty ∧ (s.setPrgRam m).shift = s.shift ∧
    (s.setPrgRam m).count = s.count ∧ (s.setPrgRam m).irqLatch = s.irqLatch ∧
    (s.setPrgRam m).irqCounter = s.irqCounter ∧ (s.setPrgRam m).irqEnable = s.irqEnable ∧
    (s.setPrgRam m).irqPending = s.irqPending ∧ (s.setPrgRam m).irqReload = s.irqReload ∧
    (s.setPrgRam m).countMode = s.countMode ∧ (s.setPrgRam m).edgePrev = s.edgePrev ∧
    (s.setPrgRam m).diagSizeMismatch = s.diagSizeMismatch ∧ (s.setPrgRam m).chrMem = s.chrMem ∧
    (s.setPrgRam m).prgRam = m ∧ (s.setPrgRam m).stream = s.stream ∧ (s.setPrgRam m).position = s.position ∧
    (s.setPrgRam m).response = s.response ∧ (s.setPrgRam m).diag = s.diag := by
  and_intros <;> rfl

@[simp] theorem State.setFetch_fields (s : State) (stream : List Word) (position : Nat) :
    (s.setFetch stream position).cfg = s.cfg ∧ (s.setFetch stream position).prgBank = s.prgBank ∧
    (s.setFetch stream position).chrBank = s.chrBank ∧ (s.setFetch stream position).sel = s.sel ∧
    (s.setFetch stream position).prgMode = s.prgMode ∧ (s.setFetch stream position).chrMode = s.chrMode ∧
    (s.setFetch stream position).mirrorField = s.mirrorField ∧ (s.setFetch stream position).ramEnable = s.ramEnable ∧
    (s.setFetch stream position).ramProtect = s.ramProtect ∧ (s.setFetch stream position).dirty = s.dirty ∧
    (s.setFetch stream position).shift = s.shift ∧ (s.setFetch stream position).count = s.count ∧
    (s.setFetch stream position).irqLatch = s.irqLatch ∧ (s.setFetch stream position).irqCounter = s.irqCounter ∧
    (s.setFetch stream position).irqEnable = s.irqEnable ∧ (s.setFetch stream position).irqPending = s.irqPending ∧
    (s.setFetch stream position).irqReload = s.irqReload ∧ (s.setFetch stream position).countMode = s.countMode ∧
    (s.setFetch stream position).edgePrev = s.edgePrev ∧
    (s.setFetch stream position).diagSizeMismatch = s.diagSizeMismatch ∧
    (s.setFetch stream position).chrMem = s.chrMem ∧ (s.setFetch stream position).prgRam = s.prgRam ∧
    (s.setFetch stream position).stream = stream ∧ (s.setFetch stream position).position = position ∧
    (s.setFetch stream position).response = s.response ∧ (s.setFetch stream position).diag = s.diag := by
  and_intros <;> rfl

@[simp] theorem State.setOutput_fields (s : State) (response : Response) (diag : Option Diag) :
    (s.setOutput response diag).cfg = s.cfg ∧ (s.setOutput response diag).prgBank = s.prgBank ∧
    (s.setOutput response diag).chrBank = s.chrBank ∧ (s.setOutput response diag).sel = s.sel ∧
    (s.setOutput response diag).prgMode = s.prgMode ∧ (s.setOutput response diag).chrMode = s.chrMode ∧
    (s.setOutput response diag).mirrorField = s.mirrorField ∧ (s.setOutput response diag).ramEnable = s.ramEnable ∧
    (s.setOutput response diag).ramProtect = s.ramProtect ∧ (s.setOutput response diag).dirty = s.dirty ∧
    (s.setOutput response diag).shift = s.shift ∧ (s.setOutput response diag).count = s.count ∧
    (s.setOutput response diag).irqLatch = s.irqLatch ∧ (s.setOutput response diag).irqCounter = s.irqCounter ∧
    (s.setOutput response diag).irqEnable = s.irqEnable ∧ (s.setOutput response diag).irqPending = s.irqPending ∧
    (s.setOutput response diag).irqReload = s.irqReload ∧ (s.setOutput response diag).countMode = s.countMode ∧
    (s.setOutput response diag).edgePrev = s.edgePrev ∧
    (s.setOutput response diag).diagSizeMismatch = s.diagSizeMismatch ∧
    (s.setOutput response diag).chrMem = s.chrMem ∧ (s.setOutput response diag).prgRam = s.prgRam ∧
    (s.setOutput response diag).stream = s.stream ∧ (s.setOutput response diag).position = s.position ∧
    (s.setOutput response diag).response = response ∧ (s.setOutput response diag).diag = diag := by
  and_intros <;> rfl

/-- Reset leaves the memories, `dirty`, the diagnostic bit and the configuration as they were (R300). -/
@[simp] theorem resetRegisters_keeps (s : State) :
    (resetRegisters s).cfg = s.cfg ∧ (resetRegisters s).chrMem = s.chrMem ∧ (resetRegisters s).prgRam = s.prgRam ∧
    (resetRegisters s).dirty = s.dirty ∧ (resetRegisters s).diagSizeMismatch = s.diagSizeMismatch ∧
    (resetRegisters s).stream = s.stream ∧ (resetRegisters s).position = s.position := by
  and_intros <;> rfl

/-- Reset's values of the engine and the serial loader (R300). -/
@[simp] theorem resetRegisters_zero (s : State) :
    (resetRegisters s).count = 0 ∧ (resetRegisters s).shift = 0 ∧ (resetRegisters s).irqPending = false ∧
    (resetRegisters s).irqEnable = false ∧ (resetRegisters s).irqReload = false ∧ (resetRegisters s).irqCounter = 0 ∧
    (resetRegisters s).irqLatch = 0 ∧ (resetRegisters s).edgePrev = false ∧ (resetRegisters s).countMode = false := by
  and_intros <;> rfl

end Sys2Proof.Machine
end

