-- ==== Sys2Proof/Laws/Ops.lean ====
section
/-! SUPPORT. One specification lemma for each shared operation: what it can change, and what it leaves alone. -/

namespace Sys2Proof.Machine

/-! ## What a register write, a tick, an edge and a reset leave alone -/

/-- The memories, `dirty`, the diagnostic bit, the configuration and the host's stream are the same. -/
structure KeepsStores (s t : State) : Prop where
  cfg : t.cfg = s.cfg
  chrMem : t.chrMem = s.chrMem
  prgRam : t.prgRam = s.prgRam
  dirty : t.dirty = s.dirty
  diagSizeMismatch : t.diagSizeMismatch = s.diagSizeMismatch
  stream : t.stream = s.stream
  position : t.position = s.position

theorem KeepsStores.refl (s : State) : KeepsStores s s := ⟨rfl, rfl, rfl, rfl, rfl, rfl, rfl⟩

theorem KeepsStores.trans {s t u : State} (h : KeepsStores s t) (h' : KeepsStores t u) : KeepsStores s u :=
  ⟨h'.cfg.trans h.cfg, h'.chrMem.trans h.chrMem, h'.prgRam.trans h.prgRam, h'.dirty.trans h.dirty,
    h'.diagSizeMismatch.trans h.diagSizeMismatch, h'.stream.trans h.stream, h'.position.trans h.position⟩

/-! ## Register actions -/

theorem writeIrqEnable_fields (b : Bool) (s : State) :
    writeIrqEnable b s = { s with irqEnable := b, irqPending := s.irqPending && b } := by
  cases b <;> simp [writeIrqEnable, clearIrq, State.setIrqEnable, State.setIrqPending]

/-- "No action writes PRG-ROM, CHR storage, PRG-RAM, `shift`, `count`, `edge_prev`, `dirty` or
`diag_size_mismatch`" (R240). -/
theorem applyAction_keeps (act : Action Byte) (s : State) :
    KeepsStores s (applyAction act s) ∧ (applyAction act s).shift = s.shift ∧ (applyAction act s).count = s.count ∧
    (applyAction act s).edgePrev = s.edgePrev := by
  cases act
  case irqEnable => rw [applyAction, writeIrqEnable_fields]; exact ⟨⟨rfl, rfl, rfl, rfl, rfl, rfl, rfl⟩, rfl, rfl, rfl⟩
  all_goals exact ⟨⟨rfl, rfl, rfl, rfl, rfl, rfl, rfl⟩, rfl, rfl, rfl⟩

/-- No action asserts the interrupt, and an action that clears the enable clears the interrupt with it (R185, R188). -/
theorem applyAction_irq (act : Action Byte) (s : State) :
    ((applyAction act s).irqPending = true → s.irqPending = true) ∧
    ((s.irqPending = true → s.irqEnable = true) →
      (applyAction act s).irqPending = true → (applyAction act s).irqEnable = true) := by
  cases act <;> simp [applyAction, writeIrqEnable_fields, clearIrq]
  exact fun h _ => h

/-- A property every action keeps holds after a list of actions (R241). -/
theorem applyActions_induct {P : State → Prop} (step : ∀ act s, P s → P (applyAction act s)) (acts : List (Action Byte))
    {s : State} (h : P s) : P (applyActions acts s) := by
  induction acts generalizing s with
  | nil => exact h
  | cons act acts ih => exact ih (step act s h)

theorem applyActions_keeps (acts : List (Action Byte)) (s : State) :
    KeepsStores s (applyActions acts s) ∧ (applyActions acts s).shift = s.shift ∧
    (applyActions acts s).count = s.count ∧ (applyActions acts s).edgePrev = s.edgePrev := by
  refine applyActions_induct (P := fun t => KeepsStores s t ∧ t.shift = s.shift ∧ t.count = s.count ∧
    t.edgePrev = s.edgePrev) (fun act t h => ?_) acts ⟨.refl s, rfl, rfl, rfl⟩
  have k := applyAction_keeps act t
  exact ⟨h.1.trans k.1, k.2.1.trans h.2.1, k.2.2.1.trans h.2.2.1, k.2.2.2.trans h.2.2.2⟩

theorem applyActions_irq (acts : List (Action Byte)) (s : State) :
    ((applyActions acts s).irqPending = true → s.irqPending = true) ∧
    ((s.irqPending = true → s.irqEnable = true) →
      (applyActions acts s).irqPending = true → (applyActions acts s).irqEnable = true) := by
  constructor
  · exact applyActions_induct (P := fun t => t.irqPending = true → s.irqPending = true)
      (fun act t h k => h ((applyAction_irq act t).1 k)) acts id
  · exact fun h => applyActions_induct (P := fun t => t.irqPending = true → t.irqEnable = true)
      (fun act t => (applyAction_irq act t).2) acts h

/-! ## What a register write does -/

/-- The effect of a register write, of either kind of profile: it leaves the stores alone, asserts no interrupt, keeps
the pending flag under the enable, and keeps the serial count at most 4. -/
structure WritesRegisters (s t : State) : Prop where
  keeps : KeepsStores s t
  edgePrev : t.edgePrev = s.edgePrev
  irqPending : t.irqPending = true → s.irqPending = true
  irqEnable : (s.irqPending = true → s.irqEnable = true) → t.irqPending = true → t.irqEnable = true
  count : s.count.toNat ≤ 4 → t.count.toNat ≤ 4

theorem WritesRegisters.trans {s t u : State} (h : WritesRegisters s t) (h' : WritesRegisters t u) :
    WritesRegisters s u :=
  ⟨h.keeps.trans h'.keeps, h'.edgePrev.trans h.edgePrev, fun k => h.irqPending (h'.irqPending k),
    fun k => h'.irqEnable (h.irqEnable k), fun k => h'.count (h.count k)⟩

theorem applyActions_writes (acts : List (Action Byte)) (s : State) : WritesRegisters s (applyActions acts s) :=
  ⟨(applyActions_keeps acts s).1, (applyActions_keeps acts s).2.2.2, (applyActions_irq acts s).1,
    (applyActions_irq acts s).2, by rw [(applyActions_keeps acts s).2.2.1]; exact id⟩

theorem setSerial_writes (s : State) (shift : BitVec 5) (count : BitVec 3)
    (h : s.count.toNat ≤ 4 → count.toNat ≤ 4) : WritesRegisters s (s.setSerial shift count) :=
  ⟨⟨rfl, rfl, rfl, rfl, rfl, rfl, rfl⟩, rfl, id, id, h⟩

theorem setPrgMode_writes (s : State) (m : BitVec 2) : WritesRegisters s (s.setPrgMode m) :=
  ⟨⟨rfl, rfl, rfl, rfl, rfl, rfl, rfl⟩, rfl, id, id, id⟩

/-- The serial count below 5 and not 4 stays below 5 when it advances (R202). -/
theorem count_advance {c : BitVec 3} (h : c.toNat ≤ 4) (h4 : c ≠ 4) : (c + 1).toNat ≤ 4 := by
  revert h h4; revert c; decide

theorem serialShift_writes {commit : BitVec 5 → State → State} (hc : ∀ x s, WritesRegisters s (commit x s)) (b : Bool)
    (s : State) : WritesRegisters s (serialShift b commit s) := by
  simp only [serialShift]
  split
  · exact ((setSerial_writes s _ _ id).trans (hc _ _)).trans (setSerial_writes _ _ _ fun _ => by decide)
  · next h => exact setSerial_writes s _ _ fun k => count_advance k h

theorem serialReset_writes (s : State) : WritesRegisters s (serialReset s) :=
  (setSerial_writes s 0 0 fun _ => by decide).trans (setPrgMode_writes _ _)

/-- Every write to the register range only writes registers (R109, R201 to R203, R241). -/
theorem registerWrite_writes (a : Addr) (v : Byte) (s : State) : WritesRegisters s (registerWrite a v s) := by
  unfold registerWrite serialWrite
  split
  · split
    · exact serialReset_writes s
    · exact serialShift_writes (fun x s => applyActions_writes _ s) _ s
  · exact applyActions_writes _ s

/-- With no engine the register decode produces no IRQ action (R189). -/
theorem produces_noIrq {d : ProfileData} (h : d.irqFamily = .none) {rows : List WriteRow} {sel : BitVec 3} {a : Addr}
    {v : Byte} {act : Action Byte} (m : act ∈ d.produces rows sel a v) : act.isIrq = false := by
  rw [ProfileData.produces, if_pos h] at m
  simpa using (List.mem_filter.1 m).2

/-- The six fields of the engine that a register action can write are the same. -/
structure KeepsIrq (s t : State) : Prop where
  irqLatch : t.irqLatch = s.irqLatch
  irqCounter : t.irqCounter = s.irqCounter
  irqEnable : t.irqEnable = s.irqEnable
  irqPending : t.irqPending = s.irqPending
  irqReload : t.irqReload = s.irqReload
  countMode : t.countMode = s.countMode

theorem KeepsIrq.refl (s : State) : KeepsIrq s s := ⟨rfl, rfl, rfl, rfl, rfl, rfl⟩

theorem KeepsIrq.trans {s t u : State} (h : KeepsIrq s t) (h' : KeepsIrq t u) : KeepsIrq s u :=
  ⟨h'.irqLatch.trans h.irqLatch, h'.irqCounter.trans h.irqCounter, h'.irqEnable.trans h.irqEnable,
    h'.irqPending.trans h.irqPending, h'.irqReload.trans h.irqReload, h'.countMode.trans h.countMode⟩

theorem applyActions_keepsIrq {acts : List (Action Byte)} (h : ∀ act ∈ acts, act.isIrq = false) (s : State) :
    KeepsIrq s (applyActions acts s) := by
  induction acts generalizing s with
  | nil => exact .refl s
  | cons act acts ih =>
    refine .trans ?_ (ih (fun x m => h x (.tail _ m)) (applyAction act s))
    have := h act (.head _)
    cases act <;> first | exact ⟨rfl, rfl, rfl, rfl, rfl, rfl⟩ | exact Bool.noConfusion this

/-- With no engine a register write leaves the IRQ fields alone (R189). -/
theorem registerWrite_keepsIrq {s : State} (h : s.cfg.profile.data.irqFamily = .none) (a : Addr) (v : Byte) :
    KeepsIrq s (registerWrite a v s) := by
  have ser : ∀ s : State, ∀ shift count, KeepsIrq s (s.setSerial shift count) := fun _ _ _ => ⟨rfl, rfl, rfl, rfl, rfl, rfl⟩
  unfold registerWrite serialWrite
  split
  · split
    · exact ⟨rfl, rfl, rfl, rfl, rfl, rfl⟩
    · simp only [serialShift]
      split
      · exact ((ser s _ _).trans (applyActions_keepsIrq (fun _ => produces_noIrq h) _)).trans (ser _ _ _)
      · exact ser s _ _
  · exact applyActions_keepsIrq (fun _ => produces_noIrq h) s

/-! ## The bus write -/

/-- A CPU write of PRG-RAM either does nothing or stores one byte and sets `dirty` (R223). -/
theorem ramWrite_cases (a : Addr) (v : Byte) (s : State) :
    (ramWritable s = false ∧ ramWrite a v s = s) ∨
    (ramWritable s = true ∧ ramWrite a v s =
      { s with prgRam := s.prgRam.write (ramOffset s.cfg.ramSize a) v, dirty := true }) := by
  unfold ramWrite
  cases h : ramWritable s <;> simp [State.setPrgRam, State.setDirty]

theorem cpuInRange_iff (s : State) (a : Addr) : cpuInRange s a = true ↔ s.cfg.cpuWindowLo.toNat ≤ a.toNat := by
  simp [cpuInRange]

/-- The four regions of R61, by their bounds. -/
theorem cpuRegion_cases (s : State) (a : Addr) :
    (a.toNat < s.cfg.cpuWindowLo.toNat ∧ cpuRegion s a = .outOfRange) ∨
    (s.cfg.cpuWindowLo.toNat ≤ a.toNat ∧ a.toNat < 0x6000 ∧ cpuRegion s a = .unclaimed) ∨
    (s.cfg.cpuWindowLo.toNat ≤ a.toNat ∧ 0x6000 ≤ a.toNat ∧ a.toNat ≤ 0x7FFF ∧ cpuRegion s a = .prgRam) ∨
    (s.cfg.cpuWindowLo.toNat ≤ a.toNat ∧ 0x8000 ≤ a.toNat ∧ cpuRegion s a = .prgRom) := by
  simp only [cpuRegion, cpuInRange, Bool.not_eq_true', decide_eq_false_iff_not]
  split
  · exact .inl ⟨by omega, rfl⟩
  · split
    · exact .inr (.inl ⟨by omega, by omega, rfl⟩)
    · split
      · exact .inr (.inr (.inl ⟨by omega, by omega, by omega, rfl⟩))
      · exact .inr (.inr (.inr ⟨by omega, by omega, rfl⟩))

/-- A `cpu_write` completes: out of range with a diagnostic, where no unit claims the address without effect, in the
PRG-RAM range through the guard, and in the register range as a register write (R109). -/
theorem busWrite_cases (a : Addr) (v : Byte) (s : State) :
    (a.toNat < s.cfg.cpuWindowLo.toNat ∧ busWrite a v s = .next (s.setOutput .none (some (.invalidAddress a)))) ∨
    (s.cfg.cpuWindowLo.toNat ≤ a.toNat ∧ a.toNat < 0x6000 ∧ busWrite a v s = .next (s.setOutput .none none)) ∨
    (s.cfg.cpuWindowLo.toNat ≤ a.toNat ∧ 0x6000 ≤ a.toNat ∧ a.toNat ≤ 0x7FFF ∧
      busWrite a v s = .next ((ramWrite a v s).setOutput .none none)) ∨
    (s.cfg.cpuWindowLo.toNat ≤ a.toNat ∧ 0x8000 ≤ a.toNat ∧
      busWrite a v s = .next ((registerWrite a v s).setOutput .none none)) := by
  rcases cpuRegion_cases s a with ⟨h, e⟩ | ⟨h, h', e⟩ | ⟨h, h', h'', e⟩ | ⟨h, h', e⟩
  · exact .inl ⟨h, by rw [busWrite, e]; rfl⟩
  · exact .inr (.inl ⟨h, h', by rw [busWrite, e]; rfl⟩)
  · exact .inr (.inr (.inl ⟨h, h', h'', by rw [busWrite, e]; rfl⟩))
  · exact .inr (.inr (.inr ⟨h, h', by rw [busWrite, e]; rfl⟩))

/-- A second-level row completes: its effect in its own profile and in range, the `cpu_write` elsewhere (R90, R109). -/
theorem rowWrite_cases (p : Profile) (effect : State → State) (a : Addr) (v : Byte) (s : State) :
    (s.cfg.profile = p ∧ s.cfg.cpuWindowLo.toNat ≤ a.toNat ∧
      rowWrite p effect a v s = .next ((effect s).setOutput .none none)) ∨
    ((s.cfg.profile ≠ p ∨ a.toNat < s.cfg.cpuWindowLo.toNat) ∧ rowWrite p effect a v s = busWrite a v s) := by
  unfold rowWrite
  split
  · next h => exact .inl ⟨h.1, (cpuInRange_iff s a).1 h.2, rfl⟩
  · next h =>
    rw [cpuInRange_iff, not_and_or, Nat.not_le] at h
    exact .inr ⟨h, rfl⟩

/-! ## The interrupt engine -/

/-- An edge, or a tick, leaves the stores and the serial loader alone, keeps the enable, and asserts the interrupt only
while it is set. -/
structure Clocks (s t : State) : Prop where
  keeps : KeepsStores s t
  count : t.count = s.count
  irqEnable : t.irqEnable = s.irqEnable
  irqPending : t.irqPending = true → s.irqPending = true ∨ s.irqEnable = true

theorem Clocks.refl (s : State) : Clocks s s := ⟨.refl s, rfl, rfl, .inl⟩

theorem Clocks.trans {s t u : State} (h : Clocks s t) (h' : Clocks t u) : Clocks s u :=
  ⟨h.keeps.trans h'.keeps, h'.count.trans h.count, h'.irqEnable.trans h.irqEnable, fun k =>
    (h'.irqPending k).elim h.irqPending fun k => .inr (h.irqEnable ▸ k)⟩

theorem edgeClock_clocks (s : State) : Clocks s (edgeClock s) := by
  unfold edgeClock
  split
  · exact ⟨⟨rfl, rfl, rfl, rfl, rfl, rfl, rfl⟩, rfl, rfl, .inl⟩
  · split
    · exact ⟨⟨rfl, rfl, rfl, rfl, rfl, rfl, rfl⟩, rfl, rfl, .inl⟩
    · dsimp only
      split
      · next h => exact ⟨⟨rfl, rfl, rfl, rfl, rfl, rfl, rfl⟩, rfl, rfl, fun _ => .inr h.2⟩
      · exact ⟨⟨rfl, rfl, rfl, rfl, rfl, rfl, rfl⟩, rfl, rfl, .inl⟩

theorem setEdgePrev_clocks (s : State) (b : Bool) : Clocks s (s.setEdgePrev b) :=
  ⟨⟨rfl, rfl, rfl, rfl, rfl, rfl, rfl⟩, rfl, rfl, .inl⟩

/-- The edge hook clocks the engine or not, and writes the level (R172). -/
theorem edgeHook_clocks (s : State) (a : Addr) : Clocks s (edgeHook s a) := by
  unfold edgeHook
  split
  · exact (edgeClock_clocks s).trans (setEdgePrev_clocks _ _)
  · exact setEdgePrev_clocks s _

/-- Outside the edge family the hook asserts nothing (R172). -/
theorem edgeHook_other {s : State} (h : s.cfg.profile.data.irqFamily ≠ .edge) (a : Addr) :
    edgeHook s a = s.setEdgePrev (edgeLevel s a) := by
  simp [edgeHook, edgeRises, h]

theorem edgeClock_decoder (s : State) :
    (edgeClock s).chrBank = s.chrBank ∧ (edgeClock s).chrMode = s.chrMode ∧ (edgeClock s).prgBank = s.prgBank ∧
    (edgeClock s).prgMode = s.prgMode := by
  unfold edgeClock
  split
  · exact ⟨rfl, rfl, rfl, rfl⟩
  · split
    · exact ⟨rfl, rfl, rfl, rfl⟩
    · dsimp only
      split <;> exact ⟨rfl, rfl, rfl, rfl⟩

/-- The hook reads and writes nothing the decoder reads (R110: "the edge hook changes no bank"). -/
theorem edgeHook_decoder (s : State) (a : Addr) :
    (edgeHook s a).chrBank = s.chrBank ∧ (edgeHook s a).chrMode = s.chrMode ∧ (edgeHook s a).prgBank = s.prgBank ∧
    (edgeHook s a).prgMode = s.prgMode := by
  unfold edgeHook
  split
  · exact edgeClock_decoder s
  · exact ⟨rfl, rfl, rfl, rfl⟩

theorem tick_clocks (s : State) : Clocks s (tick s) := by
  unfold tick tickUp tickDown wrapTick raiseIrq
  repeat' split
  all_goals first
    | exact ⟨⟨rfl, rfl, rfl, rfl, rfl, rfl, rfl⟩, rfl, rfl, .inl⟩
    | exact ⟨⟨rfl, rfl, rfl, rfl, rfl, rfl, rfl⟩, rfl, rfl, fun _ => .inr ‹_›⟩

/-- A tick writes the counter and the pending flag (R176, R177). -/
theorem tick_frame (s : State) : ∃ c p, tick s = { s with irqCounter := c, irqPending := p } := by
  unfold tick tickUp tickDown wrapTick raiseIrq
  repeat' split
  all_goals exact ⟨_, _, rfl⟩

theorem ticks_succ (n : Nat) (s : State) : ticks (n + 1) s = ticks n (tick s) := rfl

/-- Ticks compose (R179: "`clock(n)` then `clock(m)` equals `clock(n + m)`"). -/
theorem ticks_add (n m : Nat) (s : State) : ticks (n + m) s = ticks m (ticks n s) := by
  induction n generalizing s with
  | zero => simp [ticks]
  | succ n ih => rw [Nat.succ_add, ticks_succ, ticks_succ, ih]

theorem ticks_clocks (n : Nat) (s : State) : Clocks s (ticks n s) := by
  induction n generalizing s with
  | zero => exact .refl s
  | succ n ih => exact (tick_clocks s).trans (ih _)

theorem ticks_frame (n : Nat) (s : State) :
    ∃ c p, ticks n s = { s with irqCounter := c, irqPending := p } := by
  induction n generalizing s with
  | zero => exact ⟨_, _, rfl⟩
  | succ n ih =>
    obtain ⟨c, p, h⟩ := ih (tick s)
    obtain ⟨_, _, h'⟩ := tick_frame s
    exact ⟨c, p, by rw [ticks_succ, h, h']⟩

/-! ## The decoded accesses -/

theorem noteWrap_eq (s : State) (wraps : Bool) :
    noteWrap s wraps = { s with diagSizeMismatch := s.diagSizeMismatch || wraps } := by
  cases wraps <;> simp [noteWrap, State.setDiagSizeMismatch]

/-- What a read of PRG-ROM does where a window answers (R108, R130). -/
theorem readPrgRom_eq {s : State} {a : Addr} {w : Window 4} (h : prgWindow s a = some w) :
    readPrgRom a s = .next { s with
      diagSizeMismatch := s.diagSizeMismatch || w.wraps s.prgBank s.cfg.prgSize a.toNat
      response := .byte (s.cfg.prgRom.read (w.offset s.prgBank s.cfg.prgSize a.toNat))
      diag := mismatchDiag s .prg (w.wraps s.prgBank s.cfg.prgSize a.toNat) } := by
  simp only [readPrgRom, h, noteWrap_eq]
  rfl

/-- What a CHR read does where a window answers (R110, R130). -/
theorem readChr_eq {s : State} {a : Addr} {w : Window 8} (h : chrWindow s a = some w) :
    readChr a s = .next { s with
      diagSizeMismatch := s.diagSizeMismatch || w.wraps s.chrBank s.cfg.chrSize a.toNat
      response := .byte (s.chrMem.read (w.offset s.chrBank s.cfg.chrSize a.toNat))
      diag := mismatchDiag s .chr (w.wraps s.chrBank s.cfg.chrSize a.toNat) } := by
  simp only [readChr, h, noteWrap_eq]
  rfl

/-- What a CHR write does where a window answers (R111, R130, R133). -/
theorem writeChr_eq {s : State} {a : Addr} {v : Byte} {w : Window 8} (h : chrWindow s a = some w) :
    writeChr a v s = .next { s with
      diagSizeMismatch := s.diagSizeMismatch || w.wraps s.chrBank s.cfg.chrSize a.toNat
      chrMem := if s.cfg.chrIsRam then s.chrMem.write (w.offset s.chrBank s.cfg.chrSize a.toNat) v else s.chrMem
      response := .none
      diag := mismatchDiag s .chr (w.wraps s.chrBank s.cfg.chrSize a.toNat) } := by
  simp only [writeChr, h, noteWrap_eq]
  rfl

/-- The window a PPU access decodes through is the same before and after the edge hook. -/
theorem chrWindow_edgeHook (s : State) (a a' : Addr) : chrWindow (edgeHook s a) a' = chrWindow s a' := by
  simp only [chrWindow, (edgeHook_clocks s a).keeps.cfg, (edgeHook_decoder s a).2.1]

/-! ## Steps -/

/-- What a step can do: idle, or perform the next word's transaction (R41, R65). -/
theorem step_cases {s t : State} (h : step s = .next t) :
    (s.stream = [] ∧ t = s) ∨
    ∃ w rest i, s.stream = w :: rest ∧ decode s.cfg.profile w = .ok i ∧
      exec i (s.setFetch rest (s.position + 1)) = .next t := by
  unfold step perform at h
  split at h
  · next hs => exact .inl ⟨hs, by injection h with h; exact h.symm⟩
  · next w rest hs =>
    split at h
    · exact absurd h (by simp)
    · next i hd => exact .inr ⟨w, rest, i, hs, hd, h⟩

end Sys2Proof.Machine
end

