-- ==== Sys2Proof/Laws/PerInstr.lean ====
section
/-! SUPPORT. Statements for all transactions, made one constructor at a time.
Family `EncodedFields`: the word of a transaction is built from a kind that is not reserved, with `rsv` zero
(R80, R81, R83). -/

namespace Sys2Proof.Laws.EncodedFields

/-- The transaction's word has a legal kind and a zero `rsv`. -/
def Statement (i : Instr) : Prop := ∃ (k : BitVec 4) (a : Addr) (d : Byte), k.toNat ≤ 0xD ∧ encode i = mkWord k a d

theorem cpuRead (a : Addr) : Statement (.cpuRead a) := ⟨_, _, _, by decide, rfl⟩
theorem cpuWrite (a : Addr) (v : Byte) : Statement (.cpuWrite a v) := ⟨_, _, _, by decide, rfl⟩
theorem ppuRead (a : Addr) : Statement (.ppuRead a) := ⟨_, _, _, by decide, rfl⟩
theorem ppuWrite (a : Addr) (v : Byte) : Statement (.ppuWrite a v) := ⟨_, _, _, by decide, rfl⟩
theorem reset : Statement (.reset) := ⟨_, _, _, by decide, rfl⟩
theorem scanline : Statement (.scanline) := ⟨_, _, _, by decide, rfl⟩
theorem clock (n : Addr) : Statement (.clock n) := ⟨_, _, _, by decide, rfl⟩
theorem irqState : Statement (.irqState) := ⟨_, _, _, by decide, rfl⟩
theorem irqClear : Statement (.irqClear) := ⟨_, _, _, by decide, rfl⟩
theorem getMirror : Statement (.getMirror) := ⟨_, _, _, by decide, rfl⟩
theorem saveRead (o : Addr) : Statement (.saveRead o) := ⟨_, _, _, by decide, rfl⟩
theorem saveWrite (o : Addr) (v : Byte) : Statement (.saveWrite o v) := ⟨_, _, _, by decide, rfl⟩
theorem dirtyRead : Statement (.dirtyRead) := ⟨_, _, _, by decide, rfl⟩
theorem dirtyClear : Statement (.dirtyClear) := ⟨_, _, _, by decide, rfl⟩
theorem sReset (a : Addr) (v : Byte) : Statement (.sReset a v) := ⟨_, _, _, by decide, rfl⟩
theorem sShiftControl (a : Addr) (v : Byte) : Statement (.sShiftControl a v) := ⟨_, _, _, by decide, rfl⟩
theorem sShiftChr0 (a : Addr) (v : Byte) : Statement (.sShiftChr0 a v) := ⟨_, _, _, by decide, rfl⟩
theorem sShiftChr1 (a : Addr) (v : Byte) : Statement (.sShiftChr1 a v) := ⟨_, _, _, by decide, rfl⟩
theorem sShiftPrg (a : Addr) (v : Byte) : Statement (.sShiftPrg a v) := ⟨_, _, _, by decide, rfl⟩
theorem eBankSelect (a : Addr) (v : Byte) : Statement (.eBankSelect a v) := ⟨_, _, _, by decide, rfl⟩
theorem eBankData (a : Addr) (v : Byte) : Statement (.eBankData a v) := ⟨_, _, _, by decide, rfl⟩
theorem eMirror (a : Addr) (v : Byte) : Statement (.eMirror a v) := ⟨_, _, _, by decide, rfl⟩
theorem eRamProtect (a : Addr) (v : Byte) : Statement (.eRamProtect a v) := ⟨_, _, _, by decide, rfl⟩
theorem eIrqLatch (a : Addr) (v : Byte) : Statement (.eIrqLatch a v) := ⟨_, _, _, by decide, rfl⟩
theorem eIrqReload (a : Addr) (v : Byte) : Statement (.eIrqReload a v) := ⟨_, _, _, by decide, rfl⟩
theorem eIrqDisable (a : Addr) (v : Byte) : Statement (.eIrqDisable a v) := ⟨_, _, _, by decide, rfl⟩
theorem eIrqEnable (a : Addr) (v : Byte) : Statement (.eIrqEnable a v) := ⟨_, _, _, by decide, rfl⟩
theorem cPrg (a : Addr) (v : Byte) : Statement (.cPrg a v) := ⟨_, _, _, by decide, rfl⟩
theorem cMirror (a : Addr) (v : Byte) : Statement (.cMirror a v) := ⟨_, _, _, by decide, rfl⟩
theorem cChrLo (a : Addr) (v : Byte) : Statement (.cChrLo a v) := ⟨_, _, _, by decide, rfl⟩
theorem cChrHi (a : Addr) (v : Byte) : Statement (.cChrHi a v) := ⟨_, _, _, by decide, rfl⟩
theorem cIrqLatch (a : Addr) (v : Byte) : Statement (.cIrqLatch a v) := ⟨_, _, _, by decide, rfl⟩
theorem cIrqControl (a : Addr) (v : Byte) : Statement (.cIrqControl a v) := ⟨_, _, _, by decide, rfl⟩
theorem cIrqAck (a : Addr) (v : Byte) : Statement (.cIrqAck a v) := ⟨_, _, _, by decide, rfl⟩
theorem cIgnoredA (a : Addr) (v : Byte) : Statement (.cIgnoredA a v) := ⟨_, _, _, by decide, rfl⟩
theorem cIgnoredD (a : Addr) (v : Byte) : Statement (.cIgnoredD a v) := ⟨_, _, _, by decide, rfl⟩
theorem cIgnoredE (a : Addr) (v : Byte) : Statement (.cIgnoredE a v) := ⟨_, _, _, by decide, rfl⟩
theorem cIgnoredF3 (a : Addr) (v : Byte) : Statement (.cIgnoredF3 a v) := ⟨_, _, _, by decide, rfl⟩

end Sys2Proof.Laws.EncodedFields
end

