-- ==== Sys2Proof/Tests/Slice0.lean ====
section
/-! SUPPORT. The model's own tests: ill-formed terms the checks refuse, words written out from the spec's encodings, the
vectors of 95_test_vectors one transaction or one short sequence at a time, and for every obligation with hypotheses a
witness that meets them. Expected values are the spec's; a `V-…`, `W…` or `P…` in a docstring names the vector. -/

namespace Sys2Proof.Tests

open Sys2Proof Sys2Proof.Machine

/-! ## The test cartridges of 95_test_vectors section 0

Of PRG_TEST and CHR_TEST only the bytes that a test below reads are listed. -/

def cartridgeS : Cartridge where
  mapperNumber := 1
  prgRom := ⟨0x20000, [(0xC000, 0x06), (0x10000, 0x08), (0x1C000, 0x0E), (0x1FFFF, 0x0F)]⟩
  chr := .rom ⟨0x8000, [(0x2000, 0x08), (0x5000, 0x14)]⟩
  ramSize := 0x2000
  hasBattery := true
  headerMirror := .horizontal

def cartridgeE : Cartridge where
  mapperNumber := 4
  prgRom := ⟨0x10000, [(0x2000, 0x01), (0xA000, 0x05), (0xC000, 0x06), (0xE000, 0x07)]⟩
  chr := .rom ⟨0x4000, [(0x0C00, 0x03), (0x1C00, 0x07), (0x2800, 0x0A)]⟩
  ramSize := 0x2000
  hasBattery := true
  headerMirror := .vertical

def cartridgeU : Cartridge :=
  { cartridgeE with prgRom := ⟨0x4000, [(0x2000, 0x01), (0x3FFF, 0x01)]⟩, hasBattery := false }

def cartridgeC : Cartridge where
  mapperNumber := 21
  prgRom := ⟨0x8000, [(0x4000, 0x02), (0x7FFF, 0x03)]⟩
  chr := .none
  ramSize := 0
  hasBattery := false
  headerMirror := .vertical

/-- RAM contents all zero, and allocation succeeds. -/
def draws : Draws := ⟨[], [], false⟩

/-- Cart S after construction. -/
def cartS : State := { State.reset with
  cfg := ⟨1, .S, [(0xC000, 0x06), (0x10000, 0x08), (0x1C000, 0x0E), (0x1FFFF, 0x0F)], 0x20000, false, 0x8000, 0x2000,
    true, .horizontal, 0x6000, 8192⟩
  prgMode := 3, mirrorField := 3, chrMem := [(0x2000, 0x08), (0x5000, 0x14)] }

/-- Cart E after construction. -/
def cartE : State := { State.reset with
  cfg := ⟨4, .E, [(0x2000, 0x01), (0xA000, 0x05), (0xC000, 0x06), (0xE000, 0x07)], 0x10000, false, 0x4000, 0x2000,
    true, .vertical, 0x6000, 8192⟩
  chrMem := [(0x0C00, 0x03), (0x1C00, 0x07), (0x2800, 0x0A)] }

/-- Cart E4 after construction. -/
def cartE4 : State := { cartE with cfg := { cartE.cfg with hasBattery := false, headerMirror := .fourScreen } }

/-- Cart U after construction. -/
def cartU : State := { cartE with
  cfg := { cartE.cfg with prgRom := [(0x2000, 0x01), (0x3FFF, 0x01)], prgSize := 0x4000, hasBattery := false } }

/-- Cart C after construction. -/
def cartC : State := { State.reset with
  cfg := ⟨21, .C, [(0x4000, 0x02), (0x7FFF, 0x03)], 0x8000, true, 0x2000, 0, false, .vertical, 0x6000,
    8192⟩ }

/-- The state a sequence of transactions ends in, if it completes. -/
def ends (is : List Instr) (s : State) : Option State :=
  match execAll is s with
  | .next t => some t
  | .fault _ | .refused _ => none

/-- `f` of the state a sequence of transactions ends in. -/
def see {α : Type} (is : List Instr) (s : State) (f : State → α) : Option α := (ends is s).map f

/-! ## Construction and load errors -/

theorem test_construct_S : construct referenceRegistry {} cartridgeS draws = .inserted cartS := by decide
theorem test_construct_E : construct referenceRegistry {} cartridgeE draws = .inserted cartE := by decide
theorem test_construct_U : construct referenceRegistry {} cartridgeU draws = .inserted cartU := by decide
theorem test_construct_E4 :
    construct referenceRegistry {} { cartridgeE with hasBattery := false, headerMirror := .fourScreen } draws =
      .inserted cartE4 := by decide
theorem test_construct_C : construct referenceRegistry {} cartridgeC draws = .inserted cartC := by decide

/-- V-L1, V-L5. -/
theorem test_unsupportedMapper :
    construct referenceRegistry {} { cartridgeS with mapperNumber := 99, prgRom := ⟨0, []⟩, chr := .rom ⟨0, []⟩ } draws =
      .loadError (.unsupportedMapper 99) := by decide

/-- V-L2. -/
theorem test_invalidSize_prg :
    construct referenceRegistry {} { cartridgeS with prgRom := ⟨0, []⟩ } draws = .loadError (.invalidSize .prg) := by decide

/-- V-L3, V-L4. -/
theorem test_invalidSize_chr :
    construct referenceRegistry {} { cartridgeS with chr := .rom ⟨0, []⟩ } draws = .loadError (.invalidSize .chr) ∧
    construct referenceRegistry {} { cartridgeS with chr := .ram 0 } draws = .loadError (.invalidSize .chr) := by decide

/-- R104. -/
theorem test_allocationFailure :
    construct referenceRegistry {} cartridgeS { draws with allocationFails := true } = .loadError .allocationFailure := by
  decide

/-- V-L6: CHR-RAM of 8192 bytes is created. -/
theorem test_createdChrRam :
    construct referenceRegistry {} { cartridgeS with chr := .none } { draws with initChrRam := [(0x1FFF, 7), (0x2000, 9)] } =
      .inserted { cartS with
        cfg := { cartS.cfg with chrIsRam := true, chrSize := 8192 }, chrMem := [(0x1FFF, 7)] } := by decide

/-- R6: `CHR_RAM_DEFAULT_SIZE` is the size of the created CHR-RAM. -/
theorem test_chrRamDefaultSize :
    construct referenceRegistry { chrRamDefaultSize := 0x400 } { cartridgeC with prgRom := ⟨0x8000, []⟩ }
      { draws with initChrRam := [(0x3FF, 7), (0x400, 9)] } =
    .inserted { cartC with
      cfg := { cartC.cfg with prgRom := [], chrSize := 0x400, chrRamDefaultSize := 0x400 }, chrMem := [(0x3FF, 7)] } := by
  decide

/-! ## The checks on a profile (R105), one ill-formed profile for each -/

/-- One 32 KiB PRG window and one 8 KiB CHR window in every mode. -/
def rawBase : RawProfile where
  prgLayout := List.replicate 4 [⟨0x8000, 0x8000, .variable (.prg 3) 7⟩]
  chrLayout := List.replicate 2 [⟨0, 0x2000, .variable (.chr 7) 0⟩]
  mirrorSource := .header
  mirrorDecode := [.vertical, .horizontal, .vertical, .horizontal]
  serial := true
  serialTarget := .split 15 .undefined (.target .t2)
  irqFamily := .none

/-- The layouts of `rawBase` with its first PRG layout replaced. -/
def withPrg (ws : List RawWindow) : RawProfile := { rawBase with prgLayout := ws :: rawBase.prgLayout.tail }

/-- The layouts of `rawBase` with its first CHR layout replaced. -/
def withChr (ws : List RawWindow) : RawProfile := { rawBase with chrLayout := ws :: rawBase.chrLayout.tail }

theorem test_rawBase_passes : rawBase.failedCheck = none := by decide

/-- W1: a gap, an overlap, a size that is no PRG window's, a missing layout. -/
theorem test_w1_refuses :
    (withPrg [⟨0x8000, 0x4000, .fixedFirst⟩]).failedCheck = some .w1 ∧
    (withPrg [⟨0x8000, 0x8000, .fixedFirst⟩, ⟨0xE000, 0x2000, .fixedLast⟩]).failedCheck = some .w1 ∧
    (withPrg [⟨0x8000, 0x1000, .fixedFirst⟩]).failedCheck = some .w1 ∧
    ({ rawBase with prgLayout := rawBase.prgLayout.tail }).failedCheck = some .w1 := by decide

/-- W2: a gap, an overlap, a base that is no multiple of the size. -/
theorem test_w2_refuses :
    (withChr [⟨0, 0x1000, .fixedFirst⟩]).failedCheck = some .w2 ∧
    (withChr [⟨0, 0x2000, .fixedFirst⟩, ⟨0x1C00, 0x0400, .fixedFirst⟩]).failedCheck = some .w2 ∧
    (withChr [⟨0, 0x0400, .fixedFirst⟩, ⟨0x0400, 0x1000, .fixedFirst⟩, ⟨0x1400, 0x0400, .fixedFirst⟩,
      ⟨0x1800, 0x0800, .fixedFirst⟩]).failedCheck = some .w2 := by decide

/-- W3: an index outside the file, the other file, a shift above 7. -/
theorem test_w3_refuses :
    (withPrg [⟨0x8000, 0x8000, .variable (.prg 4) 0⟩]).failedCheck = some .w3 ∧
    (withPrg [⟨0x8000, 0x8000, .variable (.chr 0) 0⟩]).failedCheck = some .w3 ∧
    (withChr [⟨0, 0x2000, .variable (.chr 8) 0⟩]).failedCheck = some .w3 ∧
    (withChr [⟨0, 0x2000, .variable (.chr 0) 8⟩]).failedCheck = some .w3 := by decide

theorem test_w4_refuses : ({ rawBase with edgeBit := 13 }).failedCheck = some .w4 := by decide
theorem test_w5_refuses : ({ rawBase with fixedBankMode := 4 }).failedCheck = some .w5 := by decide
theorem test_w6_refuses :
    ({ rawBase with serialTarget := .split 14 .undefined (.target .t0) }).failedCheck = some .w6 := by decide
theorem test_w7_refuses : ({ rawBase with mirrorDecode := [.vertical] }).failedCheck = some .w7 := by decide

/-- A registry that holds one variant. -/
theorem test_profileRefused :
    construct (fun _ => some (.variant { rawBase with edgeBit := 13 })) {} cartridgeS draws = .profileRefused .w4 := by decide

/-! ## The checks on syntax, one ill-formed term for each -/

theorem test_wf_refuses_S :
    [Instr.sReset 0x7FFF 0x80, .sReset 0x8000 0x7F, .sShiftControl 0xA000 0, .sShiftControl 0x8000 0x80,
     .sShiftChr0 0x9FFF 0, .sShiftChr0 0xA000 0x80, .sShiftChr1 0xBFFF 0, .sShiftChr1 0xC000 0x80,
     .sShiftPrg 0xDFFF 0, .sShiftPrg 0xE000 0x80].all (fun i => !i.wf) = true := by decide

theorem test_wf_refuses_E :
    [Instr.eBankSelect 0x8001 0, .eBankData 0x8000 0, .eMirror 0xA001 0, .eRamProtect 0xA000 0, .eIrqLatch 0xC001 0,
     .eIrqReload 0xC000 0, .eIrqDisable 0xE001 0, .eIrqEnable 0xE000 0].all (fun i => !i.wf) = true := by decide

theorem test_wf_refuses_C :
    [Instr.cPrg 0x9000 0, .cMirror 0x8FFF 0, .cChrLo 0xC000 0, .cChrHi 0xBFFF 0, .cIrqLatch 0xF001 0,
     .cIrqControl 0xF002 0, .cIrqAck 0xF003 0, .cIgnoredA 0xB000 0, .cIgnoredD 0xE000 0, .cIgnoredE 0xF000 0,
     .cIgnoredF3 0xF000 0].all (fun i => !i.wf) = true := by decide

/-- A second-level row is read in no other profile, and no reference profile reads a register write as `CPU_WRITE`. -/
theorem test_readIn_refuses :
    (Instr.sReset 0x8000 0x80).readIn .E = false ∧ (Instr.eMirror 0xA000 0).readIn .C = false ∧
    (Instr.cPrg 0x8000 0).readIn (.other profileC) = false ∧ (Instr.cpuWrite 0x8000 0).readIn .S = false := by decide

/-- The canonical form refuses an entry out of order, a repeated one and a listed zero. -/
theorem test_memory_wf_refuses :
    ¬ Memory.wf [(2, 1), (1, 1)] ∧ ¬ Memory.wf [(1, 1), (1, 2)] ∧ ¬ Memory.wf [(1, 0)] := by decide

/-- A layout with a gap is not tiled. -/
theorem test_tiled_refuses :
    ({ profileC with prgLayout := Vector.replicate 4 [fixedLastWindow 0xC000 0x4000] }).tiled = false := by decide

/-! ## Words written out from the encodings of 30_encoding -/

/-- V-X1 to V-X5. -/
theorem test_decode_bus :
    decode .S 0x00800000 = .ok (.cpuRead 0x8000) ∧ decode .S 0x10402012 = .ok (.cpuWrite 0x4020 0x12) ∧
    decode .S 0x20100000 = .ok (.ppuRead 0x1000) ∧ decode .S 0x3004005A = .ok (.ppuWrite 0x0400 0x5A) :=
  ⟨rfl, rfl, rfl, rfl⟩

/-- V-X5, V-X6. -/
theorem test_decode_control :
    decode .C 0x40000000 = .ok .reset ∧ decode .C 0x50000000 = .ok .scanline ∧
    decode .C 0x60123400 = .ok (.clock 0x1234) ∧ decode .C 0x70000000 = .ok .irqState ∧
    decode .C 0x80000000 = .ok .irqClear ∧ decode .C 0x90000000 = .ok .getMirror :=
  ⟨rfl, rfl, rfl, rfl, rfl, rfl⟩

/-- V-X5, V-X7. -/
theorem test_decode_persistence :
    decode .E 0xA0000100 = .ok (.saveRead 0x0001) ∧ decode .E 0xB0000099 = .ok (.saveWrite 0x0000 0x99) ∧
    decode .E 0xC0000000 = .ok .dirtyRead ∧ decode .E 0xD0000000 = .ok .dirtyClear :=
  ⟨rfl, rfl, rfl, rfl⟩

/-- V-X11, W1, P1. -/
theorem test_decode_S :
    decode .S 0x10E123FF = .ok (.sReset 0xE123 0xFF) ∧ decode .S 0x10800001 = .ok (.sShiftControl 0x8000 0x01) ∧
    decode .S 0x10A00001 = .ok (.sShiftChr0 0xA000 0x01) ∧ decode .S 0x10DFFF7F = .ok (.sShiftChr1 0xDFFF 0x7F) ∧
    decode .S 0x10E00001 = .ok (.sShiftPrg 0xE000 0x01) :=
  ⟨rfl, rfl, rfl, rfl, rfl⟩

/-- V-X12, P2, V-E8. -/
theorem test_decode_E :
    decode .E 0x10800006 = .ok (.eBankSelect 0x8000 0x06) ∧ decode .E 0x10800105 = .ok (.eBankData 0x8001 0x05) ∧
    decode .E 0x10A000FE = .ok (.eMirror 0xA000 0xFE) ∧ decode .E 0x10BFFFC0 = .ok (.eRamProtect 0xBFFF 0xC0) ∧
    decode .E 0x10C00008 = .ok (.eIrqLatch 0xC000 0x08) ∧ decode .E 0x10C00100 = .ok (.eIrqReload 0xC001 0x00) ∧
    decode .E 0x10E00000 = .ok (.eIrqDisable 0xE000 0x00) ∧ decode .E 0x10E00100 = .ok (.eIrqEnable 0xE001 0x00) :=
  ⟨rfl, rfl, rfl, rfl, rfl, rfl, rfl, rfl⟩

/-- V-X13, V-C1, V-C8 to V-C10, P3. -/
theorem test_decode_C :
    decode .C 0x10800003 = .ok (.cPrg 0x8000 0x03) ∧ decode .C 0x10900002 = .ok (.cMirror 0x9000 0x02) ∧
    decode .C 0x10B00409 = .ok (.cChrLo 0xB004 0x09) ∧ decode .C 0x10C00302 = .ok (.cChrHi 0xC003 0x02) ∧
    decode .C 0x10F000FC = .ok (.cIrqLatch 0xF000 0xFC) ∧ decode .C 0x10F00103 = .ok (.cIrqControl 0xF001 0x03) ∧
    decode .C 0x10F7FE10 = .ok (.cIrqAck 0xF7FE 0x10) ∧ decode .C 0x10A00055 = .ok (.cIgnoredA 0xA000 0x55) ∧
    decode .C 0x10D00001 = .ok (.cIgnoredD 0xD000 0x01) ∧ decode .C 0x10E7FF02 = .ok (.cIgnoredE 0xE7FF 0x02) ∧
    decode .C 0x10F00303 = .ok (.cIgnoredF3 0xF003 0x03) :=
  ⟨rfl, rfl, rfl, rfl, rfl, rfl, rfl, rfl, rfl, rfl, rfl⟩

/-- V-X8 to V-X10: words the decoder refuses. -/
theorem test_decode_refuses :
    decode .S 0xE0000000 = .error .reservedKind ∧ decode .S 0xF1234567 = .error .reservedKind ∧
    decode .S 0x01800000 = .error .reservedField ∧ decode .S 0x40000001 = .error .unusedField ∧
    decode .S 0x00800001 = .error .unusedField ∧ decode .S 0x70000100 = .error .unusedField ∧
    decode .S 0x60000001 = .error .unusedField :=
  ⟨rfl, rfl, rfl, rfl, rfl, rfl, rfl⟩

/-- A variant outside the three reference profiles reads a register write as `CPU_WRITE` (R90). -/
theorem test_decode_other : decode (.other profileC) 0x10F00103 = .ok (.cpuWrite 0xF001 0x03) := rfl

/-- The table's words, with no profile given (log entry 5). -/
theorem test_decodeTableWord :
    decodeTableWord 32 0x10800080 = some (.sReset 0x8000 0x80) ∧
    decodeTableWord 32 0x10C00100 = some (.eIrqReload 0xC001 0x00) ∧
    decodeTableWord 32 0x10F00200 = some (.cIrqAck 0xF002 0x00) ∧ decodeTableWord 32 0xE0000000 = none := by decide

/-- Each of R93's pseudo-operations is its expansion, and a call is written as R92 writes it. -/
theorem test_assembler :
    (PseudoOp.serialLoad 0xE000 0x03).expand.map encode =
      [0x10E00001, 0x10E00001, 0x10E00000, 0x10E00000, 0x10E00000] ∧
    (PseudoOp.serialReset 0x8000).expand.map encode = [0x10800080] ∧
    PseudoOp.a12Edge.expand.map encode = [0x20000000, 0x20100000] ∧
    lineText (.saveWrite 0x0001 0x9A) .none = "save_write(0x0001, 0x9A)" ∧
    lineText (.cpuRead 0xC000) (.byte 0x0E) = "cpu_read(0xC000) -> 0x0E" := by decide

/-! ## The step -/

/-- A step takes the word at the head of the stream (V-C10's word). -/
theorem test_step_runs :
    (match step { cartC with stream := [0x10B00409, 0xE0000000] } with
      | .next t => some (t.chrBank[0], t.stream, t.position)
      | .fault _ | .refused _ => none) = some (0x09, [0xE0000000], 1) := by decide

/-- `withFetchWord` makes the very next step run the table's word, in the profile that has the row. -/
theorem test_withFetchWord :
    (match step (State.reset.withFetchWord 32 0x10C00100) with
      | .next t => some (t.irqReload, t.cfg.profile)
      | .fault _ | .refused _ => none) = some (true, .E) := by decide

/-! ## The first-level transactions -/

/-- V-S1: the last bank at 0xC000 after construction. -/
theorem test_cpuRead_rom : see [.cpuRead 0xC000] cartS (·.response) = some (.byte 0x0E) := by decide

/-- R6: another `CPU_WINDOW_LO` moves the bound, for a second-level row too; what it lets in below 0x6000 is open bus (log
entry 10). -/
theorem test_cpuWindowLo :
    see [.cpuRead 0x7000] { cartS with cfg := { cartS.cfg with cpuWindowLo := 0x7001 } } (fun t => (t.response, t.diag)) =
      some (.byte 0xFF, some (.invalidAddress 0x7000)) ∧
    see [.eIrqReload 0xC001 0x00] { cartE with cfg := { cartE.cfg with cpuWindowLo := 0xD000 } }
      (fun t => (t.irqReload, t.diag)) = some (false, some (.invalidAddress 0xC001)) ∧
    see [.cpuRead 0x5000] { cartS with cfg := { cartS.cfg with cpuWindowLo := 0x5000 } } (fun t => (t.response, t.diag)) =
      some (.byte 0xFF, none) := by decide

/-- V-O1: below the window. -/
theorem test_cpuRead_outOfRange :
    see [.cpuRead 0x5FFF] cartS id = some { cartS with response := .byte 0xFF, diag := some (.invalidAddress 0x5FFF) } := by
  decide

/-- V-R3: a PRG-RAM write sets `dirty`. -/
theorem test_cpuWrite_ram :
    see [.cpuWrite 0x6001 0x42] cartS (fun t => (t.prgRam, t.dirty)) = some ([(1, 0x42)], true) := by decide

/-- V-O2: a write below the window shifts nothing. -/
theorem test_cpuWrite_outOfRange :
    see [.cpuWrite 0x4020 0x12] cartS (fun t => (t.count, t.diag)) = some (0, some (.invalidAddress 0x4020)) := by decide

/-- V-E1: the CHR byte, and the rising edge of bit 12. -/
theorem test_ppuRead_edge :
    see [.ppuRead 0x1000] { cartE with chrBank := #v[0, 0, 3, 0, 0, 0, 0, 0], irqLatch := 5 }
      (fun t => (t.response, t.edgePrev, t.irqCounter)) = some (.byte 0x03, true, 5) := by decide

/-- V-E11: an out-of-range access is not seen by the edge detector. -/
theorem test_ppuRead_outOfRange :
    see [.ppuRead 0x3000] { cartE with irqReload := true } (fun t => (t.response, t.edgePrev, t.irqReload)) =
      some (.byte 0xFF, false, true) := by decide

/-- V-C4: CHR-RAM through bank 0. -/
theorem test_ppuWrite_ram : see [.ppuWrite 0x0400 0x5A] cartC (·.chrMem) = some [(0, 0x5A)] := by decide

/-- V-E10: a write to CHR-ROM clocks the engine and writes no byte. -/
theorem test_ppuWrite_rom :
    see [.ppuWrite 0x1000 0x55] { cartE with irqReload := true, irqLatch := 3 }
      (fun t => (t.irqCounter, t.irqReload, t.chrMem == cartE.chrMem)) = some (3, false, true) := by decide

/-- V-S10, P4: reset discards a partial sequence; V-R9: it keeps PRG-RAM and `dirty`. -/
theorem test_reset :
    see [.reset] { cartS with shift := 3, count := 2, prgMode := 0, mirrorField := 0, prgRam := [(1, 0x42)], dirty := true }
      id = some { cartS with prgRam := [(1, 0x42)], dirty := true } := by decide

/-- V-C2: the second scanline wraps. -/
theorem test_scanline :
    see [.scanline] { cartC with irqLatch := 0xFE, irqCounter := 0xFF, irqEnable := true }
      (fun t => (t.irqCounter, t.irqPending)) = some (0xFE, true) := by decide

/-- P3: no effect in cycle mode. -/
theorem test_scanline_cycleMode :
    see [.scanline] { cartC with irqCounter := 0xFF, irqEnable := true, countMode := true }
      (fun t => (t.irqCounter, t.irqPending)) = some (0xFF, false) := by decide

/-- V-C1: three ticks from 0xFE pass one wrap. -/
theorem test_clock :
    see [.clock 3] { cartC with irqLatch := 0xFE, irqCounter := 0xFE, irqEnable := true, countMode := true }
      (fun t => (t.irqCounter, t.irqPending)) = some (0xFF, true) := by decide

/-- V-C7: a wrap while disabled is modular in Profile C. -/
theorem test_clock_disabled :
    see [.clock 1] { cartC with irqLatch := 0x10, irqCounter := 0xFF, countMode := true }
      (fun t => (t.irqCounter, t.irqPending)) = some (0x00, false) := by decide

/-- R180: reading the level leaves it. -/
theorem test_irqState :
    see [.irqState] { cartE with irqPending := true, irqEnable := true } (fun t => (t.response, t.irqPending)) =
      some (.bit true, true) := by decide

/-- V-E6: the clear leaves the enable. -/
theorem test_irqClear :
    see [.irqClear] { cartE with irqPending := true, irqEnable := true } (fun t => (t.irqPending, t.irqEnable)) =
      some (false, true) := by decide

/-- V-M1. -/
theorem test_getMirror : see [.getMirror] cartS (·.response) = some (.mirror 0) := by decide

/-- V-E13: four-screen wiring overrides the field. -/
theorem test_getMirror_fourScreen :
    see [.getMirror] { cartE4 with mirrorField := 1 } (·.response) = some (.mirror 4) := by decide

/-- V-R4, V-R10: the port reads whatever the guard says. -/
theorem test_saveRead :
    see [.saveRead 0x0001] { cartS with prgRam := [(1, 0x42)], ramEnable := false } (·.response) = some (.byte 0x42) := by
  decide

/-- V-R8: past the end. -/
theorem test_saveRead_past : see [.saveRead 0x2000] cartS (·.response) = some (.byte 0xFF) := by decide

/-- V-R5: `dirty` stays. -/
theorem test_saveWrite :
    see [.saveWrite 0x0000 0x99] cartS (fun t => (t.prgRam, t.dirty)) = some ([(0, 0x99)], false) := by decide

/-- V-R8: past the end. -/
theorem test_saveWrite_past : see [.saveWrite 0x2000 0x01] cartS id = some cartS := by decide

/-- V-R3. -/
theorem test_dirtyRead :
    see [.dirtyRead] { cartS with dirty := true } (fun t => (t.response, t.dirty)) = some (.bit true, true) := by decide

/-- V-R6. -/
theorem test_dirtyClear : see [.dirtyClear] { cartS with dirty := true } id = some cartS := by decide

/-! ## Profile S -/

/-- V-S13. -/
theorem test_sReset :
    see [.sReset 0xE123 0xFF] { cartS with shift := 1, count := 1, prgMode := 0 } id = some cartS := by decide

/-- V-S11: only bit 0 of the value is used. -/
theorem test_sShiftChr0_first :
    see [.sShiftChr0 0xA000 0x7F] cartS (fun t => (t.shift, t.count)) = some (1, 1) := by decide

/-- W1: the fifth write commits 0x1A to CHR0. -/
theorem test_sShiftChr0_fifth :
    see [.sShiftChr0 0xA000 0x01] { cartS with shift := 0x0A, count := 4 }
      (fun t => (t.chrBank.toList, t.shift, t.count)) = some ([0x1A, 0, 0, 0, 0, 0, 0, 0], 0, 0) := by decide

/-- V-S6: CONTROL 0x10. -/
theorem test_sShiftControl :
    see [.sShiftControl 0x8000 0x01] { cartS with shift := 0, count := 4 }
      (fun t => (t.mirrorField, t.prgMode, t.chrMode)) = some (0, 0, true) := by decide

/-- V-S5: CONTROL 0x0E. -/
theorem test_sShiftControl_mirror :
    see [.sShiftControl 0x8000 0x00] { cartS with shift := 0x0E, count := 4 }
      (fun t => (t.mirrorField, t.prgMode, t.chrMode)) = some (2, 3, false) := by decide

/-- V-S6: CHR1 5, in 4 KiB mode. -/
theorem test_sShiftChr1 :
    see [.sShiftChr1 0xC000 0x00, .ppuRead 0x1000] { cartS with shift := 5, count := 4, chrMode := true }
      (fun t => (t.chrBank[1], t.response)) = some (5, .byte 0x14) := by decide

/-- V-S3: PRG 3. -/
theorem test_sShiftPrg :
    see [.sShiftPrg 0xE000 0x00, .cpuRead 0x8000] { cartS with shift := 3, count := 4 }
      (fun t => (t.prgBank[0], t.ramEnable, t.response)) = some (3, true, .byte 0x06) := by decide

/-- V-S8: bit 4 disables PRG-RAM. -/
theorem test_sShiftPrg_disable :
    see [.sShiftPrg 0xE000 0x01] { cartS with shift := 0, count := 4 } (fun t => (t.prgBank[0], t.ramEnable)) =
      some (0, false) := by decide

/-! ## Variants with tables of their own -/

/-- Cart S with other profile data. -/
def variantS (d : ProfileData) : State := { cartS with cfg := { cartS.cfg with profile := .other d } }

/-- R203: a commit that gathers `mirror_field` from bits 4 and 0 of the value, and on value 3 writes nothing. -/
theorem test_commit_byValue :
    let d := { profileS with
      serialTarget := .target .t0
      commits := { t0 := [{ vMask := 0x1F, vMatch := 3, acts := [] },
        { vMask := 0x11, vMatch := 0x10, acts := [.mirrorField (.lit 2)] },
        { vMask := 0x11, vMatch := 0x01, acts := [.mirrorField (.lit 1)] }] } }
    see [.cpuWrite 0x8000 0x01] { variantS d with shift := 0, count := 4 } (·.mirrorField) = some 2 ∧
    see [.cpuWrite 0x8000 0x00] { variantS d with shift := 5, count := 4 } (·.mirrorField) = some 1 ∧
    see [.cpuWrite 0x8000 0x00] { variantS d with shift := 3, count := 4 } (·.mirrorField) = some 3 := by decide

/-- R189: with no engine the decode produces no IRQ action, and the table's other actions are performed. -/
theorem test_noEngine_noIrqAction :
    see [.cpuWrite 0xC000 0x55]
      (variantS { profileC with
        irqFamily := .none, writeRows := [{ acts := [.irqLatch (.data 0 8), .prgBank 2 (.lit 7), .irqEnable (.lit 1)] }] })
      (fun t => (t.irqLatch, t.irqEnable, t.prgBank[2])) = some (0, false, 7) := by decide

/-! ## Profile E -/

/-- V-E2. -/
theorem test_eBankSelect :
    see [.eBankSelect 0x8000 0x82] cartE (fun t => (t.sel, t.chrMode)) = some (2, true) := by decide

/-- V-E4: `chr_bank[0]`. -/
theorem test_eBankData_chr :
    see [.eBankData 0x8001 0x05, .ppuRead 0x0000] cartE (fun t => (t.chrBank[0], t.response)) = some (5, .byte 0x0A) := by
  decide

/-- V-B5: `prg_bank[1]`, and a wrapping decode. -/
theorem test_eBankData_prg :
    see [.eBankData 0x8001 0x09, .cpuRead 0xA000] { cartE with sel := 7 }
      (fun t => (t.prgBank[1], t.response, t.diag)) = some (9, .byte 0x01, some (.sizeMismatch .prg)) := by decide

/-- V-E3: only bit 0 is used. -/
theorem test_eMirror : see [.eMirror 0xA000 0xFE] { cartE with mirrorField := 1 } (·.mirrorField) = some 0 := by decide

/-- V-R7. -/
theorem test_eRamProtect :
    see [.eRamProtect 0xA001 0xC0, .cpuWrite 0x6000 0x11] cartE (fun t => (t.ramEnable, t.ramProtect, t.prgRam, t.dirty)) =
      some (true, true, [], false) := by decide

/-- V-E5's first write. -/
theorem test_eIrqLatch :
    see [.eIrqLatch 0xC000 0x08] cartE (fun t => (t.irqLatch, t.irqCounter)) = some (8, 0) := by decide

/-- The reload waits for the next edge (R184). -/
theorem test_eIrqReload :
    see [.eIrqReload 0xC001 0x00] { cartE with irqLatch := 8, irqCounter := 2 } (fun t => (t.irqReload, t.irqCounter)) =
      some (true, 2) := by decide

/-- V-E8. -/
theorem test_eIrqDisable :
    see [.eIrqDisable 0xE000 0x00] { cartE with irqEnable := true, irqPending := true }
      (fun t => (t.irqEnable, t.irqPending)) = some (false, false) := by decide

/-- V-E12: enabling raises nothing by itself. -/
theorem test_eIrqEnable :
    see [.eIrqEnable 0xE001 0x00] cartE (fun t => (t.irqEnable, t.irqPending)) = some (true, false) := by decide

/-! ## Profile C -/

/-- V-C5: bank 3 of 2 wraps to 1. -/
theorem test_cPrg :
    see [.cPrg 0x8000 0x03, .cpuRead 0x8000] cartC (fun t => (t.prgBank[0], t.response, t.diag)) =
      some (3, .byte 0x02, some (.sizeMismatch .prg)) := by decide

/-- V-M3. -/
theorem test_cMirror : see [.cMirror 0x9000 0x03, .getMirror] cartC (·.response) = some (.mirror 3) := by decide

/-- V-C10. -/
theorem test_cChrLo : see [.cChrLo 0xB004 0x09] cartC (·.chrBank.toList) = some [9, 0, 0, 0, 0, 0, 0, 0] := by decide

/-- V-C9. -/
theorem test_cChrHi : see [.cChrHi 0xC003 0x02] cartC (·.chrBank.toList) = some [0, 0, 0, 0, 0, 0, 0, 2] := by decide

/-- P3. -/
theorem test_cIrqLatch : see [.cIrqLatch 0xF000 0xFC] cartC (·.irqLatch) = some 0xFC := by decide

/-- V-C14: enabling again reloads, and a pending interrupt stays. -/
theorem test_cIrqControl_enable :
    see [.cIrqControl 0xF001 0x03]
      { cartC with irqLatch := 0xFE, irqCounter := 0xFF, irqEnable := true, irqPending := true, countMode := true }
      (fun t => (t.irqCounter, t.irqPending, t.countMode)) = some (0xFE, true, true) := by decide

/-- V-C7: disabling clears the interrupt and leaves the counter. -/
theorem test_cIrqControl_disable :
    see [.cIrqControl 0xF001 0x00] { cartC with irqCounter := 0xFF, irqEnable := true, irqPending := true }
      (fun t => (t.irqCounter, t.irqPending, t.irqEnable)) = some (0xFF, false, false) := by decide

/-- V-C3: the acknowledge leaves the enable. -/
theorem test_cIrqAck :
    see [.cIrqAck 0xF002 0x00] { cartC with irqEnable := true, irqPending := true }
      (fun t => (t.irqEnable, t.irqPending)) = some (true, false) := by decide

/-- V-C8. -/
theorem test_cIgnored :
    see [.cIgnoredA 0xA000 0x55, .cIgnoredD 0xD000 0x01, .cIgnoredE 0xE7FF 0x02, .cIgnoredF3 0xF003 0x03] cartC id =
      some cartC := by decide

/-- W2's fourth row. -/
theorem test_edge_reload :
    see PseudoOp.a12Edge.expand { cartE with irqLatch := 8, irqReload := true, irqEnable := true }
      (fun t => (t.irqCounter, t.irqReload, t.irqPending)) = some (8, false, false) := by decide

/-- W3: bank 5 of 2 is bank 1. -/
theorem test_undersizedRom :
    see [.cpuRead 0x8000, .cpuRead 0x9FFF] { cartU with prgBank := #v[5, 0, 0, 0] }
      (fun t => (t.response, t.diagSizeMismatch, t.diag)) = some (.byte 0x01, true, none) := by decide

/-! ## Witnesses: for every obligation with hypotheses, states and operands that meet them

The test cartridges stand in for "every constructed instance". -/

theorem configWf_S : ConfigWf cartS.cfg := ⟨by decide, by decide, tiled_S, by decide, by decide⟩
theorem configWf_E : ConfigWf cartE.cfg := ⟨by decide, by decide, tiled_E, by decide, by decide⟩
theorem configWf_C : ConfigWf cartC.cfg := ⟨by decide, by decide, tiled_C, by decide, by decide⟩

theorem instanceInv_S : InstanceInv cartS :=
  ⟨configWf_S, by decide, by decide, fun _ => ⟨rfl, rfl, rfl, rfl, rfl, rfl⟩, by decide, by decide, by decide, by decide⟩
theorem instanceInv_E : InstanceInv cartE :=
  ⟨configWf_E, by decide, by decide, nofun, by decide, by decide, by decide, by decide⟩
theorem instanceInv_C : InstanceInv cartC :=
  ⟨configWf_C, by decide, by decide, nofun, by decide, by decide, by decide, by decide⟩

/-- The last word of the register range as a row, the last address below it as a `CPU_WRITE`, the first in a variant. -/
theorem witness_EncodeThenDecodeGivesTheTransaction :
    ((Instr.sReset 0xFFFF 0xFF).wf = true ∧ (Instr.sReset 0xFFFF 0xFF).readIn .S = true) ∧
    ((Instr.cpuWrite 0x7FFF 0x01).wf = true ∧ (Instr.cpuWrite 0x7FFF 0x01).readIn .C = true) ∧
    ((Instr.cpuWrite 0x8000 0x01).wf = true ∧ (Instr.cpuWrite 0x8000 0x01).readIn (.other profileC) = true) := by decide

theorem witness_DecodedTransactionEncodesToItsWord : decode .E 0x10BFFFC0 = .ok (.eRamProtect 0xBFFF 0xC0) := rfl

/-- A refused word and a legal one at the head of a stream, and a word for which only one reason applies, for each. -/
theorem witness_ExactlyTheIllegalWordsAreRefused :
    (∃ s : State, s.stream = [0x40000001] ∧ step s = .refused (.illegalWord 0x40000001 .unusedField)) ∧
    (∃ s t : State, s.stream = [0x40000000] ∧ step s = .next t) ∧
    (kindReserved 0xE0000000 ∧ ¬ rsvNonZero 0xE0000000 ∧ ¬ unusedNonZero 0xE0000000) ∧
    (¬ kindReserved 0xDF000000 ∧ rsvNonZero 0xDF000000 ∧ ¬ unusedNonZero 0xDF000000) ∧
    (¬ kindReserved 0x00800001 ∧ ¬ rsvNonZero 0x00800001 ∧ unusedNonZero 0x00800001) :=
  ⟨⟨{ cartS with stream := [0x40000001] }, rfl, rfl⟩, ⟨{ cartS with stream := [0x40000000] }, _, rfl, rfl⟩,
    by unfold kindReserved rsvNonZero unusedNonZero; decide, by unfold kindReserved rsvNonZero unusedNonZero; decide,
    by unfold kindReserved rsvNonZero unusedNonZero; decide⟩

theorem witness_OpcodeTableMasksSelectTheirRows :
    ∀ r ∈ secondLevelRows, r.2.2.1 &&& r.2.1 = r.2.2.1 ∧ (r.2.2.1 ||| ~~~r.2.1) &&& r.2.1 = r.2.2.1 := by decide

/-- The first and the last register write, and the words beside them. -/
theorem witness_EveryRegisterWriteMatchesOneRow :
    ∀ p ∈ [Profile.S, Profile.E, Profile.C],
      [0x107FFFFF#32, 0x10800000, 0x10FFFFFF, 0x11000000].map (fun w =>
        (secondLevelRows.filter (fun r => r.1 == p && w &&& r.2.1 == r.2.2.1)).length) = [0, 1, 1, 0] := by decide

theorem witness_SecondLevelRowIsItsCpuWrite :
    (Instr.eBankData 0x8001 0x05).wf = true ∧ encode (.eBankData 0x8001 0x05) = encode (.cpuWrite 0x8001 0x05) := by decide

theorem witness_StepPerformsTheDecodedTransaction :
    cartS.stream = [] ∧
    ∃ s : State, s.stream = 0x10E00001 :: [0x40000000] ∧ decode s.cfg.profile 0x10E00001 = .ok (.sShiftPrg 0xE000 0x01) :=
  ⟨rfl, { cartS with stream := [0x10E00001, 0x40000000] }, rfl, rfl⟩

/-- Cart S with two words queued. -/
def queuedS : State := { cartS with stream := [0x10E00001, 0x40000000] }

theorem instanceInv_queuedS : InstanceInv queuedS :=
  ⟨configWf_S, by decide, by decide, fun _ => ⟨rfl, rfl, rfl, rfl, rfl, rfl⟩, by decide, by decide, by decide, by decide⟩

theorem witness_EveryStepKeepsTheInvariant : ∃ s t : State, InstanceInv s ∧ step s = .next t ∧ t.count = 1 :=
  ⟨queuedS, _, instanceInv_queuedS, rfl, rfl⟩

theorem witness_NoStepChangesTheConfiguration :
    (∃ t, step queuedS = .next t) ∧ queuedS.stream = 0x10E00001 :: [0x40000000] ∧
    (∃ t, step cartS = .next t) ∧ cartS.stream = [] :=
  ⟨⟨_, rfl⟩, rfl, ⟨_, rfl⟩, rfl⟩

theorem witness_EveryTransactionCompletes : InstanceInv cartS ∧ InstanceInv cartE ∧ InstanceInv cartC :=
  ⟨instanceInv_S, instanceInv_E, instanceInv_C⟩

theorem witness_LegalRunsNeverStop : InstanceInv queuedS ∧ legalStream queuedS :=
  ⟨instanceInv_queuedS, fun w h => by
    rcases List.mem_pair.mp h with rfl | rfl <;> rfl⟩

theorem witness_ConstructedInstanceIsAtReset :
    ∃ s, construct referenceRegistry {} cartridgeS draws = .inserted s := ⟨cartS, test_construct_S⟩

/-- Each clause: an unknown number; then, with a known profile, each of the three errors and each CHR declaration. -/
theorem witness_ConstructionEndsAsItsChecksSay :
    referenceRegistry 99 = none ∧ referenceRegistry 0 = none ∧
    referenceRegistry cartridgeS.mapperNumber = some .S ∧ RegistryEntry.S.profile = .ok .S ∧
    cartridgeS.prgRom.size ≠ 0 ∧ chrIsEmpty (.rom ⟨0, []⟩) ∧ chrIsEmpty (.ram 0) ∧ ¬ chrIsEmpty cartridgeS.chr ∧
    ¬ chrIsEmpty (.ram 1) ∧ ¬ chrIsEmpty .none ∧ ({} : Environment).chrRamDefaultSize ≠ 0 ∧
    draws.allocationFails = false :=
  ⟨rfl, rfl, rfl, rfl, by decide, rfl, rfl, nofun, nofun, id, by decide, rfl⟩

theorem witness_ZeroDefaultChrSizeIsInvalidSize :
    referenceRegistry cartridgeC.mapperNumber = some .C ∧ RegistryEntry.C.profile = .ok .C ∧ cartridgeC.prgRom.size ≠ 0 ∧
    cartridgeC.chr = .none ∧ ({ chrRamDefaultSize := 0 } : Environment).chrRamDefaultSize = 0 :=
  ⟨rfl, rfl, by decide, rfl, rfl⟩

/-- The last byte of each store is drawn. -/
theorem witness_AnyRamContentsCanBeDrawn :
    construct referenceRegistry {} cartridgeE draws = .inserted cartE ∧
    Memory.wf [(0x1FFF, 0xAB)] ∧ Memory.within [(0x1FFF, 0xAB)] cartE.cfg.ramSize ∧
    construct referenceRegistry {} cartridgeC draws = .inserted cartC ∧ Memory.wf [(0, 1), (0x1FFF, 2)] ∧
    Memory.within [(0, 1), (0x1FFF, 2)] cartC.cfg.chrSize :=
  ⟨test_construct_E, by decide, by decide, test_construct_C, by decide, by decide⟩

/-- A profile that fails each check of R105: a layout short, a gap at the last address, a map with a hole at 0x8000 (the
hole of `test_w6_refuses`), and the values just past the ranges. -/
theorem witness_IllFormedProfilesAreRefused :
    ¬ MeetsR105 { rawBase with prgLayout := rawBase.prgLayout.tail } ∧
    ¬ MeetsR105 (withPrg [⟨0x8000, 0x4000, .fixedFirst⟩]) ∧
    ¬ MeetsR105 { rawBase with chrLayout := rawBase.chrLayout.tail } ∧
    ¬ MeetsR105 (withChr [⟨0, 0x1000, .fixedFirst⟩]) ∧
    ¬ MeetsR105 (withPrg [⟨0x8000, 0x8000, .variable (.prg 4) 0⟩]) ∧
    ¬ MeetsR105 (withChr [⟨0, 0x2000, .variable (.chr 0) 8⟩]) ∧
    ¬ MeetsR105 { rawBase with edgeBit := 13 } ∧ ¬ MeetsR105 { rawBase with fixedBankMode := 4 } ∧
    ¬ MeetsR105 { rawBase with serialTarget := .split 14 .undefined (.target .t0) } ∧
    ¬ MeetsR105 { rawBase with mirrorDecode := [] } :=
  ⟨fun h => absurd h.w1.1 (by decide),
    fun h => absurd ((h.w1.2 [⟨0x8000, 0x4000, .fixedFirst⟩] (by decide)).2 0xFFFF (by decide) (by decide)) (by decide),
    fun h => absurd h.w2.1 (by decide),
    fun h => absurd ((h.w2.2 [⟨0, 0x1000, .fixedFirst⟩] (by decide)).2 0x1FFF (by decide) (by decide)) (by decide),
    fun h => by
      obtain ⟨⟨i, hi, e⟩, -⟩ := h.w3.1 [⟨0x8000, 0x8000, .variable (.prg 4) 0⟩] (by decide) _ (.head _) _ _ rfl
      cases e
      exact absurd hi (by decide),
    fun h => absurd (h.w3.2 [⟨0, 0x2000, .variable (.chr 0) 8⟩] (by decide) _ (.head _) _ _ rfl).2 (by decide),
    fun h => absurd h.w4 (by decide), fun h => absurd h.w5 (by decide),
    fun h => by
      obtain ⟨t, ht⟩ := h.w6 rfl 0x8000 (by decide)
      exact absurd ht nofun,
    fun h => absurd h.w7 (by decide)⟩

/-- `rawBase`, a serial profile whose windows name the last register of each file. -/
theorem witness_WellFormedProfilesAreAcceptedAsWritten :
    MeetsR105 rawBase ∧ (∀ layout ∈ rawBase.prgLayout, windowsInside 0x8000 0xFFFF layout) ∧
    (∀ layout ∈ rawBase.chrLayout, windowsInside 0x0000 0x1FFF layout) := by
  have hp : ∀ layout ∈ rawBase.prgLayout, layout = [⟨0x8000, 0x8000, .variable (.prg 3) 7⟩] := by decide
  have hc : ∀ layout ∈ rawBase.chrLayout, layout = [⟨0, 0x2000, .variable (.chr 7) 0⟩] := by decide
  refine ⟨⟨⟨rfl, fun l h => ?_⟩, ⟨rfl, fun l h => ?_⟩, ⟨fun l h => ?_, fun l h => ?_⟩, by decide, by decide,
    fun _ a ha => ⟨.t2, ?_⟩, rfl⟩, fun l h => ?_, fun l h => ?_⟩
  · obtain rfl := hp l h
    refine ⟨by decide, fun a h1 h2 => ?_⟩
    rw [List.filter_cons_of_pos (by simp; omega)]
    rfl
  · obtain rfl := hc l h
    refine ⟨by decide, fun a h1 h2 => ?_⟩
    rw [List.filter_cons_of_pos (by simp; omega)]
    rfl
  · obtain rfl := hp l h
    simp [namesRegisters]
  · obtain rfl := hc l h
    simp [namesRegisters]
  · have : a.getLsbD 15 = true := by
      rw [BitVec.getLsbD, Nat.testBit_eq_decide_div_mod_eq]
      have := a.isLt
      simp; omega
    simp [rawBase, RawTargetMap.lookup, this]
  · obtain rfl := hp l h
    simp [windowsInside]
  · obtain rfl := hc l h
    simp [windowsInside]

theorem witness_ExactlyOneWindowAnswersEachAddress : profileS.tiled = true ∧ profileE.tiled = true ∧ profileC.tiled = true :=
  ⟨tiled_S, tiled_E, tiled_C⟩

theorem witness_DecodedOffsetsLieInTheStore :
    ConfigWf cartS.cfg ∧ 0x8000 ≤ (0x8000#16).toNat ∧ 0x8000 ≤ (0xFFFF#16).toNat ∧ (0x1FFF#16).toNat ≤ 0x1FFF :=
  ⟨configWf_S, by decide, by decide, by decide⟩

/-- The last byte of an 8 KiB window over a 16 KiB store, W3. -/
theorem witness_OffsetIsTheSourceFormula :
    let w : Window 4 := variableWindow 0x8000 0x2000 0
    w.size ∣ 0x4000 ∧ w.size ≤ 0x4000 ∧ 0 < w.size ∧ w.base ≤ 0x9FFF ∧ 0x9FFF < w.base + w.size := by decide

/-- One instance of each profile, and the boundary addresses of the clauses. -/
theorem witness_ResetRestoresTheDefaultMapping :
    (∃ t, exec .reset cartS = .next t) ∧ cartS.cfg.profile = .S ∧ (∃ t, exec .reset cartE = .next t) ∧
    cartE.cfg.profile = .E ∧ (∃ t, exec .reset cartC = .next t) ∧ cartC.cfg.profile = .C ∧
    0xC000 ≤ (0xC000#16).toNat ∧ 0x8000 ≤ (0x8000#16).toNat ∧ (0xBFFF#16).toNat ≤ 0xBFFF ∧ (0x1FFF#16).toNat ≤ 0x1FFF :=
  ⟨⟨_, rfl⟩, rfl, ⟨_, rfl⟩, rfl, ⟨_, rfl⟩, rfl, by decide, by decide, by decide, by decide⟩

theorem witness_ChrModeSwapsThePatternTableHalves :
    cartE.cfg.profile = .E ∧ (0x1FFF#16).toNat ≤ 0x1FFF ∧ (0x0000#16).toNat ≤ 0x1FFF := by decide

/-- Two states that differ in the serial and interrupt fields, at the four boundary addresses. -/
theorem witness_CpuReadSeesOnlyTheDecoderState :
    ∃ s' : State, s'.cfg = cartS.cfg ∧ s'.prgBank = cartS.prgBank ∧ s'.prgMode = cartS.prgMode ∧
      s'.prgRam = cartS.prgRam ∧ s'.ramEnable = cartS.ramEnable ∧ s' ≠ cartS ∧
      (∃ t, exec (.cpuRead 0x7FFF) cartS = .next t) ∧ (∃ t, exec (.cpuRead 0x7FFF) s' = .next t) ∧
      (∃ t, exec (.cpuRead 0x8000) cartS = .next t) ∧ ∃ t, exec (.cpuRead 0x8000) s' = .next t :=
  ⟨{ cartS with shift := 5, count := 3, irqPending := true }, rfl, rfl, rfl, rfl, rfl, by decide,
    ⟨_, rfl⟩, ⟨_, rfl⟩, ⟨_, rfl⟩, ⟨_, rfl⟩⟩

/-- The boundaries of the three CPU regions, each address in one of them only. -/
theorem witness_CpuReadAnswersByRegion :
    (0x5FFF#16).toNat < cartS.cfg.cpuWindowLo.toNat ∧ cartS.cfg.cpuWindowLo.toNat ≤ (0x6000#16).toNat ∧ 0x6000 ≤ (0x6000#16).toNat ∧ (0x7FFF#16).toNat ≤ 0x7FFF ∧
    ¬ 0x8000 ≤ (0x7FFF#16).toNat ∧ 0x8000 ≤ (0x8000#16).toNat ∧ 0x8000 ≤ (0xFFFF#16).toNat ∧ ConfigWf cartS.cfg :=
  ⟨by decide, by decide, by decide, by decide, by decide, by decide, by decide, configWf_S⟩

/-- The lowest and the highest such address, of a window that starts at 0x5000. -/
theorem witness_UnclaimedCpuAddressesAreOpenBus :
    ∃ s : State, s.cfg.cpuWindowLo.toNat ≤ (0x5000#16).toNat ∧ (0x5000#16).toNat < 0x6000 ∧
      s.cfg.cpuWindowLo.toNat ≤ (0x5FFF#16).toNat ∧ (0x5FFF#16).toNat < 0x6000 :=
  ⟨{ cartS with cfg := { cartS.cfg with cpuWindowLo := 0x5000 } }, by decide⟩

/-- A cartridge whose guard is open, and one for each reason to block. -/
theorem witness_CpuWriteToPrgRamObeysTheGuard :
    cartS.cfg.cpuWindowLo.toNat ≤ (0x6000#16).toNat ∧ 0x6000 ≤ (0x6000#16).toNat ∧ (0x7FFF#16).toNat ≤ 0x7FFF ∧
    (cartS.cfg.ramSize ≠ 0 ∧ cartS.ramEnable = true ∧ cartS.ramProtect = false ∧ cartS.prgRam.wf) ∧
    cartC.cfg.ramSize = 0 ∧ ({ cartS with ramEnable := false }).ramEnable = false ∧
    ({ cartS with ramProtect := true }).ramProtect = true := by decide

theorem witness_CpuWriteOutsidePrgRam :
    (0x5FFF#16).toNat < cartE.cfg.cpuWindowLo.toNat ∧ cartE.cfg.cpuWindowLo.toNat ≤ (0x8000#16).toNat ∧
    0x8000 ≤ (0x8000#16).toNat ∧ cartE.cfg.profile.data.serial = false := by decide

theorem witness_PpuReadClocksTheEngineAndReads :
    0x1FFF < (0x2000#16).toNat ∧ (0x1FFF#16).toNat ≤ 0x1FFF ∧ (0x0000#16).toNat ≤ 0x1FFF ∧ ConfigWf cartE.cfg ∧
    isRisingEdge cartE 0x1FFF = true ∧ isRisingEdge cartE 0x0FFF = false ∧ isRisingEdge cartC 0x1FFF = false :=
  ⟨by decide, by decide, by decide, configWf_E, by decide, by decide, by decide⟩

theorem witness_PpuWriteStoresOnlyToChrRam :
    0x1FFF < (0xFFFF#16).toNat ∧ (0x1FFF#16).toNat ≤ 0x1FFF ∧ ConfigWf cartE.cfg ∧ cartE.chrMem.wf ∧ cartE.cfg.chrIsRam = false ∧
    ConfigWf cartC.cfg ∧ cartC.chrMem.wf ∧ cartC.cfg.chrIsRam = true :=
  ⟨by decide, by decide, configWf_E, by decide, rfl, configWf_C, by decide, rfl⟩

/-- V-C9: after construction 0x0800 decodes to what 0x1C00 decodes to. -/
theorem witness_ChrRamRoundTrip :
    ∃ t u : State, InstanceInv cartC ∧ cartC.cfg.chrIsRam = true ∧ (0x1C00#16).toNat ≤ 0x1FFF ∧ (0x0800#16).toNat ≤ 0x1FFF ∧
      chrOffset cartC 0x0800 = chrOffset cartC 0x1C00 ∧ exec (.ppuWrite 0x1C00 0x77) cartC = .next t ∧
      exec (.ppuRead 0x0800) t = .next u :=
  ⟨_, _, instanceInv_C, rfl, by decide, by decide, by decide, rfl, rfl⟩

/-- A profile of each kind of reset value for the field. -/
theorem witness_ResetRestoresTheRegisters :
    profileC.resetValues.mirrorField = .encHeader ∧
    ({ profileC with resetValues := { mirrorField := .value 3 } }).resetValues.mirrorField = .value 3 := by decide

theorem witness_ReferenceResetValues :
    (∃ t, exec .reset cartS = .next t) ∧ cartS.cfg.profile = .S ∧ (∃ t, exec .reset cartE = .next t) ∧
    cartE.cfg.profile = .E ∧ (∃ t, exec .reset cartC = .next t) ∧ cartC.cfg.profile = .C :=
  ⟨⟨_, rfl⟩, rfl, ⟨_, rfl⟩, rfl, ⟨_, rfl⟩, rfl⟩

theorem witness_GetMirrorFollowsTheMultiplexer :
    cartE4.cfg.headerMirror = .fourScreen ∧ cartE.cfg.headerMirror ≠ .fourScreen ∧
    cartE.cfg.profile.data.mirrorSource = .register ∧
    (Profile.other { profileC with mirrorSource := .header }).data.mirrorSource = .header := by decide

theorem witness_MirroringWritesTakeEffectAtOnce :
    cartE.cfg.cpuWindowLo.toNat ≤ (0xA000#16).toNat ∧ cartC.cfg.cpuWindowLo.toNat ≤ (0x9FFF#16).toNat ∧
    (∃ t u : State, cartE.cfg.profile = .E ∧ exec (.eMirror 0xA000 0xFF) cartE = .next t ∧
      exec .getMirror t = .next u) ∧
    ∃ t u : State, cartC.cfg.profile = .C ∧ exec (.cMirror 0x9FFF 0xFF) cartC = .next t ∧ exec .getMirror t = .next u :=
  ⟨by decide, by decide, ⟨_, _, rfl, rfl, rfl⟩, ⟨_, _, rfl, rfl, rfl⟩⟩

theorem witness_ScanlineIsOneTick :
    (cartC.cfg.profile.data.irqFamily = .counter ∧ cartC.countMode = false) ∧
    ¬ (cartE.cfg.profile.data.irqFamily = .counter ∧ cartE.countMode = false) := by decide

theorem witness_ClockIsOneTickPerCycle :
    ¬ (cartC.cfg.profile.data.irqFamily = .counter ∧ cartC.countMode = true) ∧
    cartC.cfg.profile.data.irqFamily = .counter ∧ ({ cartC with countMode := true }).countMode = true ∧
    (0x7FFF#16).toNat + (0x8000#16).toNat < 0x10000 := by decide

/-- The longest period, of latch 0, and the shortest. -/
theorem witness_CounterInterruptPeriod :
    (∃ s : State, s.cfg.profile.data.irqFamily = .counter ∧ s.cfg.profile.data.counterDir = .up ∧ s.countMode = true ∧
      s.irqEnable = true ∧ s.irqPending = false ∧ s.irqCounter = s.irqLatch ∧
      (0x100#16).toNat + s.irqLatch.toNat ≤ 0x100) ∧
    ∃ s : State, s.cfg.profile.data.irqFamily = .counter ∧ s.cfg.profile.data.counterDir = .up ∧ s.countMode = true ∧
      s.irqEnable = true ∧ s.irqPending = false ∧ s.irqCounter = s.irqLatch ∧
      (1#16).toNat + s.irqLatch.toNat ≤ 0x100 ∧ s.irqLatch = 0xFF :=
  ⟨⟨{ cartC with countMode := true, irqEnable := true }, by decide⟩,
    ⟨{ cartC with countMode := true, irqEnable := true, irqLatch := 0xFF, irqCounter := 0xFF }, by decide⟩⟩

/-- W2 at its shortest: latch 1, one further edge. -/
theorem witness_EdgeInterruptComesAtTheLatchCount :
    ∃ s : State, ConfigWf s.cfg ∧ s.cfg.profile.data.irqFamily = .edge ∧ s.cfg.profile.data.edgeBit = 12 ∧
      1 ≤ s.irqLatch.toNat ∧ s.irqReload = true ∧ s.irqEnable = true ∧ s.irqPending = false ∧ 2 ≤ s.irqLatch.toNat + 1 :=
  ⟨{ cartE with irqLatch := 1, irqReload := true, irqEnable := true }, configWf_E, by decide, by decide, by decide,
    by decide, by decide, by decide, by decide⟩

/-- A raise in each family that has one, and a clear. -/
theorem witness_PendingChangesOnlyByTheListedEvents :
    (∃ s t : State, s.cfg.profile = .E ∧ exec (.ppuRead 0x1000) s = .next t ∧ s.irqPending = false ∧ t.irqPending = true) ∧
    (∃ s t : State, s.cfg.profile = .C ∧ exec .scanline s = .next t ∧ s.irqPending = false ∧ t.irqPending = true) ∧
    (∃ s t : State, s.cfg.profile = .C ∧ exec (.clock 1) s = .next t ∧ s.irqPending = false ∧ t.irqPending = true) ∧
    ∃ s t : State, s.cfg.profile = .C ∧ (Instr.cIrqControl 0xF001 0x02).wf = true ∧
      (Instr.cIrqControl 0xF001 0x02).readIn .C = true ∧ exec (.cIrqControl 0xF001 0x02) s = .next t ∧
      s.irqPending = true ∧ t.irqPending = false :=
  ⟨⟨{ cartE with irqCounter := 1, irqEnable := true }, _, rfl, rfl, rfl, by decide⟩,
    ⟨{ cartC with irqCounter := 0xFF, irqEnable := true }, _, rfl, rfl, rfl, by decide⟩,
    ⟨{ cartC with irqCounter := 0xFF, irqEnable := true, countMode := true }, _, rfl, rfl, rfl, by decide⟩,
    ⟨{ cartC with irqEnable := true, irqPending := true }, _, rfl, rfl, rfl, rfl, rfl, by decide⟩⟩

/-- A transaction of Profile S, and a write by a variant whose table holds an IRQ action. -/
theorem witness_WithoutAnEngineNoInterrupt :
    profileS.irqFamily = .none ∧
    (∃ t, exec (.sShiftPrg 0xE000 0x01) cartS = .next t ∧ cartS.cfg.profile.data.irqFamily = .none ∧ IrqIdle cartS) ∧
    ∃ s t : State, exec (.cpuWrite 0x8000 0x01) s = .next t ∧ s.cfg.profile.data.irqFamily = .none ∧ IrqIdle s ∧
      s.cfg.profile.data.writeRows = [{ acts := [.irqLatch (.data 0 8)] }] :=
  ⟨rfl, ⟨_, rfl, rfl, rfl, rfl, rfl, rfl, rfl, rfl⟩,
    variantS { profileC with irqFamily := .none, writeRows := [{ acts := [.irqLatch (.data 0 8)] }] }, _, rfl, rfl,
    ⟨rfl, rfl, rfl, rfl, rfl, rfl⟩, rfl⟩

theorem witness_SerialRowsShiftAndCommit :
    cartS.cfg.profile = .S ∧ cartS.cfg.cpuWindowLo.toNat ≤ (0x8000#16).toNat ∧ cartS.count.toNat < 4 ∧
    ({ cartS with count := 3 }).count.toNat < 4 ∧ ({ cartS with count := 4 }).count.toNat ≤ 4 ∧
    ({ cartS with count := 4 }).count = 4 := by decide

theorem witness_FiveSerialWritesCommitOnce :
    cartS.cfg.profile.data.serial = true ∧ cartS.count = 0 ∧
    cartS.cfg.cpuWindowLo.toNat ≤ 0x8000 ∧
    (∀ k : Fin 5, 0x8000 ≤ ((#v[0x8000#16, 0xFFFF, 0xA000, 0xC000, 0xE000])[k]).toNat ∧
      ((#v[0x01#8, 0x7F, 0x00, 0x01, 0x01])[k]).getLsbD 7 = false) ∧
    0x8000 ≤ (0x8000#16).toNat ∧ (0x80#8).getLsbD 7 = true := by decide

/-- `sel` at both ends of each clause. -/
theorem witness_ProfileERowsWriteTheirRegisters :
    cartE.cfg.profile = .E ∧ cartE.cfg.cpuWindowLo.toNat ≤ (0x8000#16).toNat ∧ cartE.sel.toNat = (0 : Fin 8).val ∧ (0 : Fin 8).val ≤ 5 ∧
    ({ cartE with sel := 5 }).sel.toNat = (5 : Fin 8).val ∧ (5 : Fin 8).val ≤ 5 ∧ ({ cartE with sel := 6 }).sel = 6 ∧
    ({ cartE with sel := 7 }).sel = 7 := by decide

theorem witness_ProfileCRowsWriteTheirRegisters :
    cartC.cfg.profile = .C ∧ cartC.cfg.cpuWindowLo.toNat ≤ (0x8000#16).toNat ∧ (0 : Fin 8).val = (0xB000#16).toNat % 4 ∧ (3 : Fin 8).val = (0xBFFF#16).toNat % 4 ∧
    (4 : Fin 8).val = 4 + (0xC000#16).toNat % 4 ∧ (7 : Fin 8).val = 4 + (0xCFFF#16).toNat % 4 := by decide

theorem witness_BankWritesAreIdempotent :
    (∃ t, cartE.cfg.profile = .E ∧ exec (.eBankData 0x8001 0x05) cartE = .next t) ∧
    ∃ t, cartC.cfg.profile = .C ∧ exec (.cPrg 0x8000 0x03) cartC = .next t :=
  ⟨⟨_, rfl, rfl⟩, ⟨_, rfl, rfl⟩⟩

theorem witness_PersistencePortReadsAndWrites :
    (0x1FFF#16).toNat < cartS.cfg.ramSize ∧ cartS.prgRam.wf ∧ cartS.cfg.ramSize ≤ (0x2000#16).toNat := by decide

theorem witness_RomIsNeverWritten :
    ∃ t, step { cartE with stream := [0x30000055] } = .next t ∧ cartE.cfg.chrIsRam = false := ⟨_, rfl, rfl⟩

/-- Each writer of PRG-RAM changes it, and `dirty` is set and cleared. -/
theorem witness_PrgRamAndDirtyChangeOnlyByTheirWriters :
    (∃ t, (Instr.cpuWrite 0x7FFF 0x01).wf = true ∧ exec (.cpuWrite 0x7FFF 0x01) cartS = .next t ∧ t.prgRam ≠ cartS.prgRam ∧
      cartS.dirty = false ∧ t.dirty = true) ∧
    (∃ t, (Instr.saveWrite 0x1FFF 0x01).wf = true ∧ exec (.saveWrite 0x1FFF 0x01) cartS = .next t ∧
      t.prgRam ≠ cartS.prgRam) ∧
    ∃ s t : State, exec .dirtyClear s = .next t ∧ s.dirty = true ∧ t.dirty = false :=
  ⟨⟨_, rfl, rfl, by decide, by decide, by decide⟩, ⟨_, rfl, rfl, by decide⟩, ⟨{ cartS with dirty := true }, _, rfl, rfl, rfl⟩⟩

theorem witness_ReadsHaveNoSideEffects :
    (∃ t, exec (.cpuRead 0xFFFF) cartS = .next t) ∧ (∃ t, exec .irqState cartS = .next t) ∧
    (∃ t, exec .getMirror cartS = .next t) ∧ (∃ t, exec (.saveRead 0) cartS = .next t) ∧
    ∃ t, exec .dirtyRead cartS = .next t :=
  ⟨⟨_, rfl⟩, ⟨_, rfl⟩, ⟨_, rfl⟩, ⟨_, rfl⟩, ⟨_, rfl⟩⟩

/-- A wrapping decode logs it, and a second one finds the bit set. -/
theorem witness_SizeMismatchIsLoggedOnce :
    ∃ s t u : State, exec (.cpuRead 0x8000) s = .next t ∧ s.diagSizeMismatch = false ∧ t.diagSizeMismatch = true ∧
      t.diag = some (.sizeMismatch .prg) ∧ exec (.cpuRead 0x8000) t = .next u ∧ u.diag = none :=
  ⟨{ cartC with prgBank := #v[3, 0, 0, 0] }, _, _, rfl, rfl, by decide, by decide, rfl, by decide⟩

theorem witness_InvalidAddressIsEmittedExactlyOutOfRange :
    (Instr.cpuWrite 0x5FFF 0x01).wf = true ∧ (∃ t, exec (.cpuWrite 0x5FFF 0x01) cartS = .next t) ∧
    (∃ t, exec (.ppuRead 0x2000) cartS = .next t) :=
  ⟨rfl, ⟨_, rfl⟩, ⟨_, rfl⟩⟩

theorem witness_StoresAreCanonical : Memory.wf [] ∧ Memory.wf [(0, 1), (0x1FFF, 2)] := by decide

/-- A profile without an engine and a function with no IRQ action; Profile E and C meet the hypothesis by their engine. -/
theorem witness_EveryWriteDecodeHasATable :
    profileS.irqFamily = .none ∧ (∀ act ∈ [Action.prgBank 0 (0x07 : Byte)], act.isIrq = false) ∧
    profileE.irqFamily ≠ .none := by decide

theorem witness_EveryCommitHasATable :
    profileS.irqFamily = .none ∧ (∀ act ∈ [Action.mirrorField (0x03 : Byte), .ramEnable 0x00], act.isIrq = false) ∧
    profileC.irqFamily ≠ .none := by decide

end Sys2Proof.Tests
end

/-! # Proofs of the obligations cited from `00_scope`

## Stores: equal contents are equal data -/

namespace Sys2Proof

/-- The head of a canonical store is listed, so its offset does not read as unlisted. -/
theorem Memory.read_head_ne_unlisted {c : Host.Cell} {m : Memory} (h : Memory.wf (c :: m)) :
    Memory.read (c :: m) c.1 ≠ Memory.unlisted := by
  obtain ⟨-, hc, -⟩ := (Memory.wf_cons c m).mp h
  simpa [Memory.read_cons] using hc

/-- Below the head of a canonical store nothing is listed. -/
theorem Memory.read_below_head {c : Host.Cell} {m : Memory} (h : Memory.wf (c :: m)) {o : Nat} (ho : o < c.1) :
    Memory.read (c :: m) o = Memory.unlisted := by
  obtain ⟨hlow, -, -⟩ := (Memory.wf_cons c m).mp h
  refine Memory.read_of_forall_ne fun d hd => ?_
  rcases List.mem_cons.mp hd with rfl | hd
  · omega
  · have := hlow d hd; omega

/-- At its head's offset the rest of a canonical store lists nothing. -/
theorem Memory.read_tail_at_head {c : Host.Cell} {m : Memory} (h : Memory.wf (c :: m)) :
    m.read c.1 = Memory.unlisted := by
  obtain ⟨hlow, -, -⟩ := (Memory.wf_cons c m).mp h
  exact Memory.read_of_forall_ne fun d hd => (hlow d hd).ne

/-- Of two canonical stores that read alike the second begins no later than the first. -/
theorem Memory.head_le_of_read_eq {c d : Host.Cell} {m m' : Memory} (h : Memory.wf (c :: m))
    (h' : Memory.wf (d :: m')) (hread : ∀ o, Memory.read (c :: m) o = Memory.read (d :: m') o) : d.1 ≤ c.1 := by
  by_contra hlt
  exact Memory.read_head_ne_unlisted h ((hread c.1).trans (Memory.read_below_head h' (Nat.lt_of_not_le hlt)))

/-- Two canonical stores that read alike at every offset are the same list. -/
theorem Memory.eq_of_read_eq {m m' : Memory} (hm : m.wf) (hm' : m'.wf) (hread : ∀ o, m.read o = m'.read o) :
    m = m' := by
  induction m generalizing m' with
  | nil =>
    cases m' with
    | nil => rfl
    | cons d m' => exact absurd (hread d.1).symm (Memory.read_head_ne_unlisted hm')
  | cons c m ih =>
    cases m' with
    | nil => exact absurd (hread c.1) (Memory.read_head_ne_unlisted hm)
    | cons d m' =>
      have hoff : c.1 = d.1 := Nat.le_antisymm (Memory.head_le_of_read_eq hm' hm fun o => (hread o).symm)
        (Memory.head_le_of_read_eq hm hm' hread)
      have hbyte : c.2 = d.2 := by simpa [Memory.read_cons, hoff] using hread c.1
      have hcell : c = d := Prod.ext hoff hbyte
      subst hcell
      have htail : ∀ o, Memory.read m o = Memory.read m' o := fun o => by
        by_cases ho : o = c.1
        · rw [ho, Memory.read_tail_at_head hm, Memory.read_tail_at_head hm']
        · simpa [Memory.read_cons, ho] using hread o
      rw [ih ((Memory.wf_cons c m).mp hm).2.2 ((Memory.wf_cons c m').mp hm').2.2 htail]

/-- Settles O56: the form determines the list (`Memory.eq_of_read_eq`), and the other clauses are the laws of a
store. -/
theorem storesAreCanonical : Obligations.StoresAreCanonical := by
  unfold Obligations.StoresAreCanonical
  refine ⟨fun m m' => Memory.eq_of_read_eq, fun m o v hm => Memory.write_wf hm o v, fun m o o' v hm => ?_,
    fun size cells o => ⟨(Memory.ofCells_wf_within size cells).1, Memory.read_ofCells size cells o⟩⟩
  split
  · next h => rw [h, Memory.read_write_same hm]
  · next h => exact Memory.read_write_other m v h

end Sys2Proof

/-! ## Tables: every function of a write is one

The table that lists every write one by one, each row claiming its own write alone and holding its actions as
literals. -/

namespace Sys2Proof

/-- The first row decides if it claims the write, and the rest of the table otherwise (R241). -/
theorem decodeActions_cons (r : WriteRow) (rows : List WriteRow) (sel : BitVec 3) (a : Addr) (v : Byte) :
    decodeActions (r :: rows) sel a v =
      if r.claims sel a v then r.acts.map (Action.map (Operand.eval a v)) else decodeActions rows sel a v := by
  cases hc : r.claims sel a v <;> simp [decodeActions, hc]

/-- The row that claims the one write `w` (a value of `sel`, an address and a byte) and stands for `acts`. -/
def pointRow (w : BitVec 3 × Addr × Byte) (acts : List (Action Byte)) : WriteRow where
  aMask := BitVec.allOnes 16
  aMatch := w.2.1
  vMask := BitVec.allOnes 8
  vMatch := w.2.2
  selMask := BitVec.allOnes 3
  selMatch := w.1
  acts := acts.map (Action.map Operand.lit)

theorem pointRow_claims_iff (w : BitVec 3 × Addr × Byte) (acts : List (Action Byte)) (sel : BitVec 3) (a : Addr)
    (v : Byte) : (pointRow w acts).claims sel a v = true ↔ w = (sel, a, v) := by
  obtain ⟨sel', a', v'⟩ := w
  simp only [WriteRow.claims, pointRow, BitVec.and_allOnes, Bool.and_eq_true, beq_iff_eq, Prod.mk.injEq]
  tauto

/-- A literal operand evaluates to itself in every write. -/
theorem Action.map_eval_lit (a : Addr) (v : Byte) (act : Action Byte) :
    (act.map Operand.lit).map (Operand.eval a v) = act := by
  cases act <;> rfl

/-- A point row stands for its actions in every write. -/
theorem pointRow_acts_eval (w : BitVec 3 × Addr × Byte) (acts : List (Action Byte)) (a : Addr) (v : Byte) :
    (pointRow w acts).acts.map (Action.map (Operand.eval a v)) = acts := by
  simp [pointRow, Function.comp_def, Action.map_eval_lit]

/-- The table with a point row for each of the given writes. -/
def pointTable (f : BitVec 3 → Addr → Byte → List (Action Byte)) (writes : List (BitVec 3 × Addr × Byte)) :
    List WriteRow :=
  writes.map fun w => pointRow w (f w.1 w.2.1 w.2.2)

/-- On a write it lists, a point table decodes to the function's actions. -/
theorem decodeActions_pointTable (f : BitVec 3 → Addr → Byte → List (Action Byte))
    {writes : List (BitVec 3 × Addr × Byte)} {sel : BitVec 3} {a : Addr} {v : Byte} (h : (sel, a, v) ∈ writes) :
    decodeActions (pointTable f writes) sel a v = f sel a v := by
  induction writes with
  | nil => exact absurd h List.not_mem_nil
  | cons w writes ih =>
    rw [pointTable, List.map_cons, decodeActions_cons]
    by_cases hw : w = (sel, a, v)
    · rw [if_pos ((pointRow_claims_iff ..).mpr hw), pointRow_acts_eval, hw]
    · rw [if_neg fun hc => hw ((pointRow_claims_iff ..).mp hc)]
      exact ih ((List.mem_cons.mp h).resolve_left (Ne.symm hw))

/-- Every function of a write is what some table decodes to. -/
theorem exists_rows_decodeActions (f : BitVec 3 → Addr → Byte → List (Action Byte)) :
    ∃ rows : List WriteRow, ∀ sel a v, decodeActions rows sel a v = f sel a v := by
  obtain ⟨writes, -, hall⟩ := Finite.exists_univ_list (BitVec 3 × Addr × Byte)
  exact ⟨pointTable f writes, fun sel a v => decodeActions_pointTable f (hall _)⟩

/-- Where the table's actions are none of the IRQ engine's in a profile without one, the profile leaves none out
(R189). -/
theorem produces_eq_decodeActions {d : ProfileData} {rows : List WriteRow} {sel : BitVec 3} {a : Addr} {v : Byte}
    (h : d.irqFamily = .none → ∀ act ∈ decodeActions rows sel a v, act.isIrq = false) :
    d.produces rows sel a v = decodeActions rows sel a v := by
  unfold ProfileData.produces
  split
  · next hd => exact List.filter_eq_self.mpr fun act hact => by simp [h hd act hact]
  · rfl

/-- Every function of a write, with no IRQ action where the profile has no engine, is what the profile's decode produces
from some table (R189, R241). -/
theorem exists_rows_produces (d : ProfileData) (f : BitVec 3 → Addr → Byte → List (Action Byte))
    (hirq : d.irqFamily = .none → ∀ sel a v, ∀ act ∈ f sel a v, act.isIrq = false) :
    ∃ rows : List WriteRow, ∀ sel a v, d.produces rows sel a v = f sel a v := by
  obtain ⟨rows, hrows⟩ := exists_rows_decodeActions f
  refine ⟨rows, fun sel a v => ?_⟩
  rw [produces_eq_decodeActions fun hd => hrows sel a v ▸ hirq hd sel a v, hrows]

/-- Settles O57: the table that lists every write one by one (`exists_rows_produces`). -/
theorem everyWriteDecodeHasATable : Obligations.EveryWriteDecodeHasATable := by
  unfold Obligations.EveryWriteDecodeHasATable
  intro d f hirq
  exact exists_rows_produces d f hirq

end Sys2Proof

/-! ## Construction -/

namespace Sys2Proof.Machine

/-- With a known number whose profile passes R105, construction is the rest of its checks (R101, R105). -/
theorem construct_of_profile {registry : Nat → Option RegistryEntry} {c : Cartridge} {entry : RegistryEntry}
    {p : Profile} (hentry : registry c.mapperNumber = some entry) (hp : entry.profile = .ok p) (env : Environment)
    (d : Draws) : construct registry env c d = constructWith env p c d := by
  simp only [construct, hentry, hp]

/-- A load error of the CHR check ends construction, once PRG-ROM is not empty (R102, R103, R107). -/
theorem constructWith_of_chrStorage_error {env : Environment} {c : Cartridge} {d : Draws} {e : LoadError}
    (hprg : c.prgRom.size ≠ 0) (hchr : chrStorage env c d = .error e) (p : Profile) :
    constructWith env p c d = .loadError e := by
  simp only [constructWith, hprg, hchr, if_false]

/-- No CHR-RAM has zero bytes (R6, R103). -/
theorem chrRam_zero (d : Draws) : chrRam 0 d = .error (.invalidSize .chr) := rfl

/-- Settles O16: without declared CHR the storage is created with the default size, and none has zero bytes. -/
theorem zeroDefaultChrSizeIsInvalidSize : Obligations.ZeroDefaultChrSizeIsInvalidSize := by
  unfold Obligations.ZeroDefaultChrSizeIsInvalidSize
  intro registry env c d entry p hentry hp hprg hchr hdefault
  have hstorage : chrStorage env c d = .error (.invalidSize .chr) := by
    simp only [chrStorage, hchr, hdefault, chrRam_zero]
  rw [construct_of_profile hentry hp, constructWith_of_chrStorage_error hprg hstorage]

end Sys2Proof.Machine

/-! ## Open bus below PRG-RAM -/

namespace Sys2Proof.Machine

/-- In range and below 0x6000 no unit claims the address (R61). -/
theorem cpuRegion_unclaimed {s : State} {a : Addr} (hlo : s.cfg.cpuWindowLo.toNat ≤ a.toNat) (ha : a.toNat < 0x6000) :
    cpuRegion s a = .unclaimed := by
  rcases cpuRegion_cases s a with ⟨h, -⟩ | ⟨-, -, e⟩ | ⟨-, h, -, -⟩ | ⟨-, h, -⟩
  · omega
  · exact e
  · omega
  · omega

/-- Settles O29: both transactions follow the address's region, which is `unclaimed`. -/
theorem unclaimedCpuAddressesAreOpenBus : Obligations.UnclaimedCpuAddressesAreOpenBus := by
  unfold Obligations.UnclaimedCpuAddressesAreOpenBus
  intro s a v hlo ha
  have hregion := cpuRegion_unclaimed hlo ha
  constructor
  · simp only [exec, execCpuRead, hregion]
    rfl
  · simp only [exec, execCpuWrite, busWrite, hregion]
    rfl

end Sys2Proof.Machine

/-! ## What no transaction writes: the configuration, the host's stream and the position -/

namespace Sys2Proof.Machine

/-- The configuration (R6), the host's stream and the position in it (R41) are the same. -/
structure KeepsHost (s t : State) : Prop where
  cfg : t.cfg = s.cfg
  stream : t.stream = s.stream
  position : t.position = s.position

theorem KeepsHost.refl (s : State) : KeepsHost s s := ⟨rfl, rfl, rfl⟩

theorem KeepsHost.trans {s t u : State} (h : KeepsHost s t) (h' : KeepsHost t u) : KeepsHost s u :=
  ⟨h'.cfg.trans h.cfg, h'.stream.trans h.stream, h'.position.trans h.position⟩

theorem KeepsStores.keepsHost {s t : State} (h : KeepsStores s t) : KeepsHost s t := ⟨h.cfg, h.stream, h.position⟩

/-- A transaction that ends in an answer leaves what the state it answers from has. -/
theorem answer_keepsHost {s t u : State} {r : Response} {d : Option Diag} (h : answer u r d = .next t)
    (hk : KeepsHost s u) : KeepsHost s t := by
  cases h
  exact ⟨hk.cfg, hk.stream, hk.position⟩

theorem noteWrap_keepsHost (s : State) (wraps : Bool) : KeepsHost s (noteWrap s wraps) := by
  rw [noteWrap_eq]
  exact ⟨rfl, rfl, rfl⟩

theorem ramWrite_keepsHost (a : Addr) (v : Byte) (s : State) : KeepsHost s (ramWrite a v s) := by
  rcases ramWrite_cases a v s with ⟨-, e⟩ | ⟨-, e⟩ <;> rw [e] <;> exact ⟨rfl, rfl, rfl⟩

theorem busWrite_keepsHost {a : Addr} {v : Byte} {s t : State} (h : busWrite a v s = .next t) : KeepsHost s t := by
  unfold busWrite at h
  split at h
  · exact answer_keepsHost h (.refl s)
  · exact answer_keepsHost h (.refl s)
  · exact answer_keepsHost h (ramWrite_keepsHost a v s)
  · exact answer_keepsHost h (registerWrite_writes a v s).keeps.keepsHost

/-- A second-level row that only writes registers, or the `cpu_write` it is in another profile (R90). -/
theorem rowWrite_keepsHost {p : Profile} {effect : State → State} {a : Addr} {v : Byte} {s t : State}
    (h : rowWrite p effect a v s = .next t) (heffect : WritesRegisters s (effect s)) : KeepsHost s t := by
  rcases rowWrite_cases p effect a v s with ⟨-, -, e⟩ | ⟨-, e⟩
  · exact answer_keepsHost (e.symm.trans h) heffect.keeps.keepsHost
  · exact busWrite_keepsHost (e.symm.trans h)

theorem readPrgRom_keepsHost {a : Addr} {s t : State} (h : readPrgRom a s = .next t) : KeepsHost s t := by
  unfold readPrgRom at h
  split at h
  · cases h
  · exact answer_keepsHost h (noteWrap_keepsHost s _)

theorem readChr_keepsHost {a : Addr} {s t : State} (h : readChr a s = .next t) : KeepsHost s t := by
  unfold readChr at h
  split at h
  · cases h
  · exact answer_keepsHost h (noteWrap_keepsHost s _)

theorem writeChr_keepsHost {a : Addr} {v : Byte} {s t : State} (h : writeChr a v s = .next t) : KeepsHost s t := by
  unfold writeChr at h
  split at h
  · cases h
  · exact answer_keepsHost h ((noteWrap_keepsHost s _).trans ⟨rfl, rfl, rfl⟩)

theorem edgeHook_keepsHost (s : State) (a : Addr) : KeepsHost s (edgeHook s a) := (edgeHook_clocks s a).keeps.keepsHost

theorem execCpuRead_keepsHost {a : Addr} {s t : State} (h : execCpuRead a s = .next t) : KeepsHost s t := by
  unfold execCpuRead at h
  split at h
  · exact answer_keepsHost h (.refl s)
  · exact answer_keepsHost h (.refl s)
  · exact answer_keepsHost h (.refl s)
  · exact readPrgRom_keepsHost h

theorem execPpuRead_keepsHost {a : Addr} {s t : State} (h : execPpuRead a s = .next t) : KeepsHost s t := by
  unfold execPpuRead at h
  split at h
  · exact (edgeHook_keepsHost s a).trans (readChr_keepsHost h)
  · exact answer_keepsHost h (.refl s)

theorem execPpuWrite_keepsHost {a : Addr} {v : Byte} {s t : State} (h : execPpuWrite a v s = .next t) :
    KeepsHost s t := by
  unfold execPpuWrite at h
  split at h
  · exact (edgeHook_keepsHost s a).trans (writeChr_keepsHost h)
  · exact answer_keepsHost h (.refl s)

theorem execScanline_keepsHost {s t : State} (h : execScanline s = .next t) : KeepsHost s t := by
  refine answer_keepsHost h ?_
  split
  · exact (tick_clocks s).keeps.keepsHost
  · exact .refl s

theorem execClock_keepsHost {n : Addr} {s t : State} (h : execClock n s = .next t) : KeepsHost s t := by
  refine answer_keepsHost h ?_
  split
  · exact (ticks_clocks n.toNat s).keeps.keepsHost
  · exact .refl s

theorem execSaveWrite_keepsHost {o : Addr} {v : Byte} {s t : State} (h : execSaveWrite o v s = .next t) :
    KeepsHost s t := by
  refine answer_keepsHost h ?_
  split
  · exact ⟨rfl, rfl, rfl⟩
  · exact .refl s

theorem execSReset_keepsHost {a : Addr} {v : Byte} {s t : State} (h : execSReset a v s = .next t) : KeepsHost s t :=
  rowWrite_keepsHost h ((setSerial_writes s 0 0 fun _ => by decide).trans (setPrgMode_writes _ 3))

/-- No transaction changes the configuration, the host's stream or the position. -/
theorem exec_keepsHost {i : Instr} {s t : State} (h : exec i s = .next t) : KeepsHost s t := by
  cases i
  case cpuRead => exact execCpuRead_keepsHost h
  case cpuWrite => exact busWrite_keepsHost h
  case ppuRead => exact execPpuRead_keepsHost h
  case ppuWrite => exact execPpuWrite_keepsHost h
  case scanline => exact execScanline_keepsHost h
  case clock => exact execClock_keepsHost h
  case saveWrite => exact execSaveWrite_keepsHost h
  case irqState | getMirror | saveRead | dirtyRead => exact answer_keepsHost h (.refl s)
  case reset | irqClear | dirtyClear => exact answer_keepsHost h ⟨rfl, rfl, rfl⟩
  case sReset => exact execSReset_keepsHost h
  case sShiftControl | sShiftChr0 | sShiftChr1 | sShiftPrg =>
    exact rowWrite_keepsHost h (serialShift_writes (fun _ _ => applyActions_writes _ _) _ s)
  all_goals exact rowWrite_keepsHost h (applyActions_writes _ s)

/-- Settles O11: a step is idle, or takes the next word and performs its transaction, which leaves all three alone. -/
theorem noStepChangesTheConfiguration : Obligations.NoStepChangesTheConfiguration := by
  unfold Obligations.NoStepChangesTheConfiguration
  intro s t h
  rcases step_cases h with ⟨hs, rfl⟩ | ⟨w, rest, i, hs, -, hexec⟩
  · exact ⟨rfl, fun _ => rfl, fun w rest hw => by simp [hs] at hw⟩
  · obtain ⟨hcfg, hstream, hposition⟩ := exec_keepsHost hexec
    refine ⟨hcfg, fun hnil => by simp [hs] at hnil, fun w' rest' hw => ?_⟩
    obtain ⟨-, rfl⟩ := List.cons.inj (hs.symm.trans hw)
    exact ⟨hstream, hposition⟩

end Sys2Proof.Machine

/-! # Proofs of the obligations cited from `10_state`

## What a transaction can write outside the registers

Every transaction makes at most one write outside the registers (`StoreWrite`), and what it writes of the registers
keeps the register clauses of the invariant (`OnlyRegisters`). -/

namespace Sys2Proof.Machine

/-- The configuration, the stores and `dirty` are the same, and the register clauses of `InstanceInv` are kept: the
serial count at most 4 (R30), a pending interrupt enabled (R171), the engine idle where there is none (R189). -/
structure OnlyRegisters (s t : State) : Prop where
  cfg : t.cfg = s.cfg
  chrMem : t.chrMem = s.chrMem
  prgRam : t.prgRam = s.prgRam
  dirty : t.dirty = s.dirty
  count : s.count.toNat ≤ 4 → t.count.toNat ≤ 4
  irqEnable : (s.irqPending = true → s.irqEnable = true) → t.irqPending = true → t.irqEnable = true
  irqIdle : s.cfg.profile.data.irqFamily = .none → IrqIdle s → IrqIdle t

theorem OnlyRegisters.refl (s : State) : OnlyRegisters s s := ⟨rfl, rfl, rfl, rfl, id, id, fun _ => id⟩

theorem OnlyRegisters.trans {s t u : State} (h : OnlyRegisters s t) (h' : OnlyRegisters t u) : OnlyRegisters s u :=
  ⟨h'.cfg.trans h.cfg, h'.chrMem.trans h.chrMem, h'.prgRam.trans h.prgRam, h'.dirty.trans h.dirty,
    fun k => h'.count (h.count k), fun k => h'.irqEnable (h.irqEnable k),
    fun hd k => h'.irqIdle (h.cfg ▸ hd) (h.irqIdle hd k)⟩

/-- An idle engine whose fields are the same is idle. -/
theorem IrqIdle.of_keepsIrq {s t : State} (hs : IrqIdle s) (h : KeepsIrq s t) : IrqIdle t :=
  ⟨h.irqLatch.trans hs.irqLatch, h.irqCounter.trans hs.irqCounter, h.irqEnable.trans hs.irqEnable,
    h.irqPending.trans hs.irqPending, h.irqReload.trans hs.irqReload, h.countMode.trans hs.countMode⟩

/-- A register write, where it leaves the engine alone in a profile without one. -/
theorem WritesRegisters.onlyRegisters {s t : State} (h : WritesRegisters s t)
    (hirq : s.cfg.profile.data.irqFamily = .none → KeepsIrq s t) : OnlyRegisters s t :=
  ⟨h.keeps.cfg, h.keeps.chrMem, h.keeps.prgRam, h.keeps.dirty, h.count, h.irqEnable,
    fun hd hs => hs.of_keepsIrq (hirq hd)⟩

/-- A tick or an edge, where it leaves the engine alone in a profile without one. -/
theorem Clocks.onlyRegisters {s t : State} (h : Clocks s t)
    (hirq : s.cfg.profile.data.irqFamily = .none → KeepsIrq s t) : OnlyRegisters s t where
  cfg := h.keeps.cfg
  chrMem := h.keeps.chrMem
  prgRam := h.keeps.prgRam
  dirty := h.keeps.dirty
  count := by rw [h.count]; exact id
  irqEnable hs ht := h.irqEnable.trans ((h.irqPending ht).elim hs id)
  irqIdle hd hs := hs.of_keepsIrq (hirq hd)

/-- A transaction that ends in an answer writes, besides its output, what the state it answers from has written. -/
theorem answer_onlyRegisters {s t u : State} {r : Response} {d : Option Diag} (h : answer u r d = .next t)
    (hu : OnlyRegisters s u) : OnlyRegisters s t := by
  cases h
  exact hu.trans ⟨rfl, rfl, rfl, rfl, id, id, fun _ hs => hs.of_keepsIrq ⟨rfl, rfl, rfl, rfl, rfl, rfl⟩⟩

theorem noteWrap_onlyRegisters (s : State) (wraps : Bool) : OnlyRegisters s (noteWrap s wraps) := by
  rw [noteWrap_eq]
  exact ⟨rfl, rfl, rfl, rfl, id, id, fun _ hs => hs.of_keepsIrq ⟨rfl, rfl, rfl, rfl, rfl, rfl⟩⟩

/-- Storing the same bytes on both sides of a register write leaves it one. -/
theorem OnlyRegisters.setChrMem {s t : State} (h : OnlyRegisters s t) (m : Memory) :
    OnlyRegisters (s.setChrMem m) (t.setChrMem m) where
  cfg := h.cfg
  chrMem := rfl
  prgRam := h.prgRam
  dirty := h.dirty
  count := h.count
  irqEnable := h.irqEnable
  irqIdle hd hs :=
    (h.irqIdle hd (hs.of_keepsIrq ⟨rfl, rfl, rfl, rfl, rfl, rfl⟩)).of_keepsIrq ⟨rfl, rfl, rfl, rfl, rfl, rfl⟩

theorem registerWrite_onlyRegisters (a : Addr) (v : Byte) (s : State) : OnlyRegisters s (registerWrite a v s) :=
  (registerWrite_writes a v s).onlyRegisters fun hd => registerWrite_keepsIrq hd a v

/-- Without an engine the hook writes only the level (R172, R189). -/
theorem edgeHook_onlyRegisters (s : State) (a : Addr) : OnlyRegisters s (edgeHook s a) := by
  refine (edgeHook_clocks s a).onlyRegisters fun hd => ?_
  rw [edgeHook_other (by simp [hd])]
  exact ⟨rfl, rfl, rfl, rfl, rfl, rfl⟩

/-- With the engine idle at its reset values, reset leaves it so (R301). -/
theorem resetRegisters_onlyRegisters (s : State) : OnlyRegisters s (resetRegisters s) :=
  ⟨rfl, rfl, rfl, rfl, fun _ => by simp, fun _ => by simp, fun _ _ => ⟨rfl, rfl, rfl, rfl, rfl, rfl⟩⟩

theorem clearIrq_onlyRegisters (s : State) : OnlyRegisters s (clearIrq s) :=
  ⟨rfl, rfl, rfl, rfl, id, fun _ h => by simp [clearIrq] at h,
    fun _ hs => ⟨hs.irqLatch, hs.irqCounter, hs.irqEnable, rfl, hs.irqReload, hs.countMode⟩⟩

/-- Ticks come only in the counter family (R178, R179). -/
theorem Clocks.onlyRegisters_of_counter {s t : State} (h : Clocks s t) (hf : s.cfg.profile.data.irqFamily = .counter) :
    OnlyRegisters s t :=
  h.onlyRegisters fun hd => by simp [hf] at hd

/-! ### The writes outside the registers -/

/-- Every way in which transaction `i` writes a store or `dirty`: nothing, a `cpu_write` of PRG-RAM that the guard lets
through (R223), a `save_write` (R225), a `dirty_clear` (R227), a `ppu_write` of CHR-RAM (R111). -/
inductive StoreWrite (i : Instr) (s : State) : State → Prop
  | none : StoreWrite i s s
  | cpuWrite {a : Addr} {v : Byte} (hi : encode i = encode (.cpuWrite a v))
      (hlo : s.cfg.cpuWindowLo.toNat ≤ a.toNat) (hge : 0x6000 ≤ a.toNat) (hle : a.toNat ≤ 0x7FFF)
      (hguard : ramWritable s = true) :
      StoreWrite i s { s with prgRam := s.prgRam.write (ramOffset s.cfg.ramSize a) v, dirty := true }
  | saveWrite {o : Addr} {v : Byte} (hi : i = .saveWrite o v) (ho : o.toNat < s.cfg.ramSize) :
      StoreWrite i s (s.setPrgRam (s.prgRam.write o.toNat v))
  | dirtyClear (hi : i = .dirtyClear) : StoreWrite i s (s.setDirty false)
  | ppuWrite {a : Addr} {v : Byte} {w : Window 8} (hi : i = .ppuWrite a v) (hram : s.cfg.chrIsRam = true)
      (hw : chrWindow s a = some w) :
      StoreWrite i s (s.setChrMem (s.chrMem.write (w.offset s.chrBank s.cfg.chrSize a.toNat) v))

/-- The transaction `i` takes `s` to `t` by at most one such write, and otherwise writes only registers. -/
def Effect (i : Instr) (s t : State) : Prop := ∃ u, StoreWrite i s u ∧ OnlyRegisters u t

theorem OnlyRegisters.effect {i : Instr} {s t : State} (h : OnlyRegisters s t) : Effect i s t := ⟨s, .none, h⟩

/-- A transaction that answers from a state which differs in registers only. -/
theorem answer_effect {i : Instr} {s t u : State} {r : Response} {d : Option Diag} (h : answer u r d = .next t)
    (hu : OnlyRegisters s u) : Effect i s t := (answer_onlyRegisters h hu).effect

/-- A transaction that answers from a state with one write made. -/
theorem StoreWrite.effect {i : Instr} {s t u : State} {r : Response} {d : Option Diag} (hw : StoreWrite i s u)
    (h : answer u r d = .next t) : Effect i s t := ⟨u, hw, answer_onlyRegisters h (.refl u)⟩

/-- A `cpu_write`, or a second-level row that stands for it (R109). -/
theorem busWrite_effect {i : Instr} {a : Addr} {v : Byte} {s t : State} (hi : encode i = encode (.cpuWrite a v))
    (h : busWrite a v s = .next t) : Effect i s t := by
  rcases busWrite_cases a v s with ⟨-, e⟩ | ⟨-, -, e⟩ | ⟨hlo, hge, hle, e⟩ | ⟨-, -, e⟩
  · exact answer_effect (e.symm.trans h) (.refl s)
  · exact answer_effect (e.symm.trans h) (.refl s)
  · rcases ramWrite_cases a v s with ⟨-, eram⟩ | ⟨hguard, eram⟩ <;> rw [eram] at e
    · exact answer_effect (e.symm.trans h) (.refl s)
    · exact (StoreWrite.cpuWrite hi hlo hge hle hguard).effect (e.symm.trans h)
  · exact answer_effect (e.symm.trans h) (registerWrite_onlyRegisters a v s)

/-- A second-level row that writes registers, none of the engine's where its profile has none (R90, R189). -/
theorem rowWrite_effect {i : Instr} {p : Profile} {effect : State → State} {a : Addr} {v : Byte} {s t : State}
    (hi : encode i = encode (.cpuWrite a v)) (h : rowWrite p effect a v s = .next t)
    (hwrites : WritesRegisters s (effect s)) (hirq : p.data.irqFamily = .none → KeepsIrq s (effect s)) :
    Effect i s t := by
  rcases rowWrite_cases p effect a v s with ⟨rfl, -, e⟩ | ⟨-, e⟩
  · exact answer_effect (e.symm.trans h) (hwrites.onlyRegisters hirq)
  · exact busWrite_effect hi (e.symm.trans h)

/-- A serial shift write leaves the engine alone if its commit does. -/
theorem serialShift_keepsIrq {commit : BitVec 5 → State → State} (hc : ∀ x s, KeepsIrq s (commit x s)) (b : Bool)
    (s : State) : KeepsIrq s (serialShift b commit s) := by
  have hserial (u : State) (shift : BitVec 5) (count : BitVec 3) : KeepsIrq u (u.setSerial shift count) :=
    ⟨rfl, rfl, rfl, rfl, rfl, rfl⟩
  simp only [serialShift]
  split
  · exact ((hserial s _ _).trans (hc _ _)).trans (hserial _ _ _)
  · exact hserial s _ _

/-- A shift row of Profile S commits a list of actions, none of them the engine's (R244 to R247). -/
theorem shiftRow_effect {i : Instr} {acts : BitVec 5 → List (Action Byte)} {a : Addr} {v : Byte} {s t : State}
    (hi : encode i = encode (.cpuWrite a v))
    (h : rowWrite .S (serialShift (v.getLsbD 0) fun x => applyActions (acts x)) a v s = .next t)
    (hacts : ∀ x, ∀ act ∈ acts x, act.isIrq = false) : Effect i s t :=
  rowWrite_effect hi h (serialShift_writes (fun _ _ => applyActions_writes _ _) _ s) fun _ =>
    serialShift_keepsIrq (fun x u => applyActions_keepsIrq (hacts x) u) _ s

theorem readPrgRom_effect {i : Instr} {a : Addr} {s t : State} (h : readPrgRom a s = .next t) : Effect i s t := by
  unfold readPrgRom at h
  split at h
  · cases h
  · exact answer_effect h (noteWrap_onlyRegisters s _)

theorem execCpuRead_effect {i : Instr} {a : Addr} {s t : State} (h : execCpuRead a s = .next t) : Effect i s t := by
  unfold execCpuRead at h
  split at h
  · exact answer_effect h (.refl s)
  · exact answer_effect h (.refl s)
  · exact answer_effect h (.refl s)
  · exact readPrgRom_effect h

theorem readChr_onlyRegisters {a : Addr} {s t : State} (h : readChr a s = .next t) : OnlyRegisters s t := by
  unfold readChr at h
  split at h
  · cases h
  · exact answer_onlyRegisters h (noteWrap_onlyRegisters s _)

theorem execPpuRead_effect {i : Instr} {a : Addr} {s t : State} (h : execPpuRead a s = .next t) : Effect i s t := by
  unfold execPpuRead at h
  split at h
  · exact ((edgeHook_onlyRegisters s a).trans (readChr_onlyRegisters h)).effect
  · exact answer_effect h (.refl s)

/-- The data access of a `ppu_write` after the hook: the byte goes to CHR-RAM, through the window of the state before
the hook; CHR-ROM stays as it is (R111, R133). -/
theorem writeChr_edgeHook_effect {a : Addr} {v : Byte} {s t : State} (h : writeChr a v (edgeHook s a) = .next t) :
    Effect (.ppuWrite a v) s t := by
  have hhook := edgeHook_onlyRegisters s a
  obtain ⟨hbank, -, -, -⟩ := edgeHook_decoder s a
  unfold writeChr at h
  rw [chrWindow_edgeHook, hhook.cfg, hbank, hhook.chrMem] at h
  split at h
  · cases h
  · next w hw =>
    have hnote := hhook.trans (noteWrap_onlyRegisters (edgeHook s a) (w.wraps s.chrBank s.cfg.chrSize a.toNat))
    split at h
    · next hram => exact ⟨_, .ppuWrite rfl hram hw, answer_onlyRegisters h (hnote.setChrMem _)⟩
    · exact answer_effect h (hnote.setChrMem s.chrMem)

theorem execPpuWrite_effect {a : Addr} {v : Byte} {s t : State} (h : execPpuWrite a v s = .next t) :
    Effect (.ppuWrite a v) s t := by
  unfold execPpuWrite at h
  split at h
  · exact writeChr_edgeHook_effect h
  · exact answer_effect h (.refl s)

theorem execScanline_effect {i : Instr} {s t : State} (h : execScanline s = .next t) : Effect i s t := by
  refine answer_effect h ?_
  split
  · next hticks =>
    simp only [scanlineTicks, Bool.and_eq_true, beq_iff_eq] at hticks
    exact (tick_clocks s).onlyRegisters_of_counter hticks.1
  · exact .refl s

theorem execClock_effect {i : Instr} {n : Addr} {s t : State} (h : execClock n s = .next t) : Effect i s t := by
  refine answer_effect h ?_
  split
  · next hticks =>
    simp only [clockTicks, Bool.and_eq_true, beq_iff_eq] at hticks
    exact (ticks_clocks n.toNat s).onlyRegisters_of_counter hticks.1
  · exact .refl s

theorem execSaveWrite_effect {o : Addr} {v : Byte} {s t : State} (h : execSaveWrite o v s = .next t) :
    Effect (.saveWrite o v) s t := by
  unfold execSaveWrite at h
  split at h
  · next ho => exact (StoreWrite.saveWrite rfl ho).effect h
  · exact answer_effect h (.refl s)

theorem execSReset_effect {a : Addr} {v : Byte} {s t : State} (h : execSReset a v s = .next t) :
    Effect (.sReset a v) s t :=
  rowWrite_effect rfl h ((setSerial_writes s 0 0 fun _ => by decide).trans (setPrgMode_writes _ 3)) fun _ =>
    ⟨rfl, rfl, rfl, rfl, rfl, rfl⟩

/-- Every transaction makes at most one write outside the registers. -/
theorem exec_effect {i : Instr} {s t : State} (h : exec i s = .next t) : Effect i s t := by
  cases i
  case cpuRead => exact execCpuRead_effect h
  case cpuWrite => exact busWrite_effect rfl h
  case ppuRead => exact execPpuRead_effect h
  case ppuWrite => exact execPpuWrite_effect h
  case reset => exact answer_effect h (resetRegisters_onlyRegisters s)
  case scanline => exact execScanline_effect h
  case clock => exact execClock_effect h
  case irqState | getMirror | saveRead | dirtyRead => exact answer_effect h (.refl s)
  case irqClear => exact answer_effect h (clearIrq_onlyRegisters s)
  case saveWrite => exact execSaveWrite_effect h
  case dirtyClear => exact (StoreWrite.dirtyClear rfl).effect h
  case sReset => exact execSReset_effect h
  case sShiftControl | sShiftChr0 | sShiftChr1 | sShiftPrg =>
    exact shiftRow_effect rfl h (by simp [Action.isIrq])
  all_goals exact rowWrite_effect rfl h (applyActions_writes _ s) nofun

end Sys2Proof.Machine

/-! ## Every step keeps the invariant -/

namespace Sys2Proof.Machine

/-- A write of registers keeps the invariant: its store clauses because the stores are the same. -/
theorem OnlyRegisters.instanceInv {s t : State} (h : OnlyRegisters s t) (hs : InstanceInv s) : InstanceInv t where
  cfg_wf := h.cfg ▸ hs.cfg_wf
  count_le := h.count hs.count_le
  pending_enabled := h.irqEnable hs.pending_enabled
  quiet hd := h.irqIdle (h.cfg ▸ hd) (hs.quiet (h.cfg ▸ hd))
  chrMem_wf := h.chrMem ▸ hs.chrMem_wf
  chrMem_within := by rw [h.chrMem, h.cfg]; exact hs.chrMem_within
  prgRam_wf := h.prgRam ▸ hs.prgRam_wf
  prgRam_within := by rw [h.prgRam, h.cfg]; exact hs.prgRam_within

/-- The invariant, with other contents of PRG-RAM in canonical form and of its size, and any value of `dirty`. -/
theorem InstanceInv.setPrgRam_setDirty {s : State} (hs : InstanceInv s) {m : Memory} (hwf : m.wf)
    (hwithin : m.within s.cfg.ramSize) (b : Bool) : InstanceInv ((s.setPrgRam m).setDirty b) where
  cfg_wf := hs.cfg_wf
  count_le := hs.count_le
  pending_enabled := hs.pending_enabled
  quiet hd := (hs.quiet hd).of_keepsIrq ⟨rfl, rfl, rfl, rfl, rfl, rfl⟩
  chrMem_wf := hs.chrMem_wf
  chrMem_within := hs.chrMem_within
  prgRam_wf := hwf
  prgRam_within := hwithin

/-- The invariant, with other contents of CHR storage in canonical form and of its size. -/
theorem InstanceInv.setChrMem {s : State} (hs : InstanceInv s) {m : Memory} (hwf : m.wf)
    (hwithin : m.within s.cfg.chrSize) : InstanceInv (s.setChrMem m) where
  cfg_wf := hs.cfg_wf
  count_le := hs.count_le
  pending_enabled := hs.pending_enabled
  quiet hd := (hs.quiet hd).of_keepsIrq ⟨rfl, rfl, rfl, rfl, rfl, rfl⟩
  chrMem_wf := hwf
  chrMem_within := hwithin
  prgRam_wf := hs.prgRam_wf
  prgRam_within := hs.prgRam_within

/-- A byte of PRG-RAM written inside the store, with any value of `dirty`. -/
theorem InstanceInv.writePrgRam {s : State} (hs : InstanceInv s) {o : Nat} (ho : o < s.cfg.ramSize) (v : Byte)
    (b : Bool) : InstanceInv ((s.setPrgRam (s.prgRam.write o v)).setDirty b) :=
  hs.setPrgRam_setDirty (Memory.write_wf hs.prgRam_wf o v) (Memory.write_within hs.prgRam_within ho v) b

/-- When the guard lets a CPU write through (R223). -/
theorem ramWritable_iff (s : State) :
    ramWritable s = true ↔ s.cfg.ramSize ≠ 0 ∧ s.ramEnable = true ∧ s.ramProtect = false := by
  simp [ramWritable, and_assoc]

/-- The PRG-RAM offset lies in the store (R221). -/
theorem ramOffset_lt {ramSize : Nat} (h : ramSize ≠ 0) (a : Addr) : ramOffset ramSize a < ramSize :=
  Nat.mod_lt _ (Nat.pos_of_ne_zero h)

/-- Each write outside the registers lies in its store and keeps the store's canonical form. -/
theorem StoreWrite.instanceInv {i : Instr} {s u : State} (h : StoreWrite i s u) (hs : InstanceInv s) :
    InstanceInv u := by
  cases h with
  | none => exact hs
  | cpuWrite _ _ _ _ hguard => exact hs.writePrgRam (ramOffset_lt ((ramWritable_iff s).mp hguard).1 _) _ true
  | saveWrite _ ho => exact hs.writePrgRam ho _ s.dirty
  | dirtyClear => exact hs.setPrgRam_setDirty hs.prgRam_wf hs.prgRam_within false
  | ppuWrite =>
    exact hs.setChrMem (Memory.write_wf hs.chrMem_wf _ _)
      (Memory.write_within hs.chrMem_within (Window.offset_lt _ _ _ hs.cfg_wf.chrSize_pos) _)

/-- Every transaction keeps the invariant. -/
theorem exec_instanceInv {i : Instr} {s t : State} (h : exec i s = .next t) (hs : InstanceInv s) : InstanceInv t := by
  obtain ⟨u, hwrite, hregs⟩ := exec_effect h
  exact hregs.instanceInv (hwrite.instanceInv hs)

/-- The invariant does not speak of the host's stream. -/
theorem InstanceInv.setFetch {s : State} (hs : InstanceInv s) (stream : List Word) (position : Nat) :
    InstanceInv (s.setFetch stream position) :=
  OnlyRegisters.instanceInv (s := s)
    ⟨rfl, rfl, rfl, rfl, id, id, fun _ hs => hs.of_keepsIrq ⟨rfl, rfl, rfl, rfl, rfl, rfl⟩⟩ hs

/-- Settles O10: an idle step changes nothing, any other performs a transaction, which keeps the invariant. -/
theorem everyStepKeepsTheInvariant : Obligations.EveryStepKeepsTheInvariant := by
  unfold Obligations.EveryStepKeepsTheInvariant
  intro s t hs h
  rcases step_cases h with ⟨-, rfl⟩ | ⟨w, rest, i, -, -, hexec⟩
  · exact hs
  · exact exec_instanceInv hexec (hs.setFetch rest (s.position + 1))

/-! ## The stores that a transaction does not write -/

/-- No write outside the registers is to CHR-ROM (R38, R133). -/
theorem StoreWrite.chrRom {i : Instr} {s u : State} (h : StoreWrite i s u) (hrom : s.cfg.chrIsRam = false) :
    u.chrMem = s.chrMem := by
  cases h with
  | none | cpuWrite | saveWrite | dirtyClear => rfl
  | ppuWrite _ hram => exact nomatch hrom.symm.trans hram

/-- No transaction writes CHR-ROM. -/
theorem exec_chrRom {i : Instr} {s t : State} (h : exec i s = .next t) (hrom : s.cfg.chrIsRam = false) :
    t.chrMem = s.chrMem := by
  obtain ⟨u, hwrite, hregs⟩ := exec_effect h
  exact hregs.chrMem.trans (hwrite.chrRom hrom)

/-- Settles O51: no transaction writes the configuration, which holds PRG-ROM (R37), or CHR-ROM. -/
theorem romIsNeverWritten : Obligations.RomIsNeverWritten := by
  unfold Obligations.RomIsNeverWritten
  intro s t h
  rcases step_cases h with ⟨-, rfl⟩ | ⟨w, rest, i, -, -, hexec⟩
  · exact ⟨rfl, fun _ => rfl⟩
  · have hchr := exec_chrRom hexec
    exact ⟨congrArg Config.prgRom (exec_keepsHost hexec).cfg, hchr⟩

/-- A well-formed transaction that stands for a `cpu_write` below 0x8000 is that `cpu_write`: the second-level rows are
writes to the register range (R88, R243 to R265). -/
theorem eq_cpuWrite_of_low {i : Instr} {a : Addr} {v : Byte} (hwf : i.wf = true)
    (hi : encode i = encode (.cpuWrite a v)) (hle : a.toNat ≤ 0x7FFF) : i = .cpuWrite a v := by
  cases i
  all_goals obtain ⟨hkind, rfl, rfl⟩ := mkWord_inj hi
  case cpuWrite => rfl
  case cpuRead | ppuRead | ppuWrite | reset | scanline | clock | irqState | irqClear | getMirror | saveRead | saveWrite
      | dirtyRead | dirtyClear => exact absurd hkind (by decide)
  all_goals
    simp only [Instr.wf, Bool.and_eq_true, beq_iff_eq, and_8000_eq_iff, and_E000_eq_iff, and_F000_eq_iff,
      and_E001_eq_iff, and_F003_eq_iff, BitVec.reduceToNat] at hwf
    omega

/-- Settles O52: the writes outside the registers, one by one. -/
theorem prgRamAndDirtyChangeOnlyByTheirWriters : Obligations.PrgRamAndDirtyChangeOnlyByTheirWriters := by
  unfold Obligations.PrgRamAndDirtyChangeOnlyByTheirWriters
  intro s t i hwf h
  obtain ⟨u, hwrite, hregs⟩ := exec_effect h
  rw [hregs.prgRam, hregs.dirty]
  cases hwrite with
  | none | ppuWrite =>
    exact ⟨fun hne => absurd rfl hne,
      fun h0 h1 => (nomatch h0.symm.trans h1), fun h1 h0 => (nomatch h1.symm.trans h0)⟩
  | cpuWrite hi hlo hge hle hguard =>
    obtain ⟨-, henable, hprotect⟩ := (ramWritable_iff s).mp hguard
    have hcpu := eq_cpuWrite_of_low hwf hi hle
    exact ⟨fun _ => .inl ⟨_, _, hcpu, hlo, hge, hle, henable, hprotect⟩,
      fun _ _ => ⟨_, _, hcpu, hlo, hge, hle, henable, hprotect⟩, nofun⟩
  | saveWrite hi ho =>
    exact ⟨fun _ => .inr ⟨_, _, hi, ho⟩,
      fun h0 h1 => (nomatch h0.symm.trans h1), fun h1 h0 => (nomatch h1.symm.trans h0)⟩
  | dirtyClear hi => exact ⟨fun hne => absurd rfl hne, nofun, fun _ _ => hi⟩

/-! ## The step itself -/

/-- With no word waiting a step is idle (R3). -/
theorem step_nil {s : State} (h : s.stream = []) : step s = .next s := by simp only [step, h]

/-- A step performs the transaction of a legal next word, the word taken off the stream (R41, R65). -/
theorem step_of_decode {s : State} {w : Word} {rest : List Word} {i : Instr} (h : s.stream = w :: rest)
    (hdecode : decode s.cfg.profile w = .ok i) : step s = exec i (s.setFetch rest (s.position + 1)) := by
  simp only [step, h, perform, hdecode]

/-- Settles O8: the two cases of the stream (`step_nil`, `step_of_decode`). -/
theorem stepPerformsTheDecodedTransaction : Obligations.StepPerformsTheDecodedTransaction := by
  unfold Obligations.StepPerformsTheDecodedTransaction
  exact fun s => ⟨step_nil, fun w rest i => step_of_decode⟩

end Sys2Proof.Machine

/-! # Proofs of the obligations cited from `20_memory`

## The reads have no side effects -/

namespace Sys2Proof.Machine

/-- At most the output of the transaction and the diagnostic bit differ (R66). -/
def OnlyOutput (s t : State) : Prop :=
  t = { s with response := t.response, diag := t.diag, diagSizeMismatch := t.diagSizeMismatch }

theorem OnlyOutput.refl (s : State) : OnlyOutput s s := rfl

theorem OnlyOutput.setOutput {s t : State} (h : OnlyOutput s t) (r : Response) (d : Option Diag) :
    OnlyOutput s (t.setOutput r d) := by
  rw [OnlyOutput] at h
  rw [h]
  rfl

theorem noteWrap_onlyOutput (s : State) (wraps : Bool) : OnlyOutput s (noteWrap s wraps) := by
  rw [noteWrap_eq]
  rfl

/-- A transaction that ends in an answer ends in the state it answers from, with the output written. -/
theorem eq_setOutput_of_answer {u t : State} {r : Response} {d : Option Diag} (h : answer u r d = .next t) :
    t = u.setOutput r d := by
  cases h
  rfl

theorem answer_onlyOutput {s u t : State} {r : Response} {d : Option Diag} (h : answer u r d = .next t)
    (hu : OnlyOutput s u) : OnlyOutput s t :=
  eq_setOutput_of_answer h ▸ hu.setOutput r d

theorem answer_diagSizeMismatch {u t : State} {r : Response} {d : Option Diag} (h : answer u r d = .next t) :
    t.diagSizeMismatch = u.diagSizeMismatch :=
  eq_setOutput_of_answer h ▸ rfl

theorem readPrgRom_onlyOutput {a : Addr} {s t : State} (h : readPrgRom a s = .next t) : OnlyOutput s t := by
  unfold readPrgRom at h
  split at h
  · cases h
  · exact answer_onlyOutput h (noteWrap_onlyOutput s _)

/-- A `cpu_read` writes its output, and in the PRG-ROM range the diagnostic bit (R108, R130). -/
theorem execCpuRead_onlyOutput {a : Addr} {s t : State} (h : execCpuRead a s = .next t) : OnlyOutput s t := by
  unfold execCpuRead at h
  split at h
  · exact answer_onlyOutput h (.refl s)
  · exact answer_onlyOutput h (.refl s)
  · exact answer_onlyOutput h (.refl s)
  · exact readPrgRom_onlyOutput h

/-- Settles O53: four of the reads answer from the state as it is, and a `cpu_read` also notes a wrap. -/
theorem readsHaveNoSideEffects : Obligations.ReadsHaveNoSideEffects := by
  unfold Obligations.ReadsHaveNoSideEffects
  rintro s t i h (⟨a, rfl⟩ | rfl | rfl | ⟨o, rfl⟩ | rfl)
  case inl => exact ⟨execCpuRead_onlyOutput h, fun hne => absurd rfl (hne a)⟩
  all_goals exact ⟨answer_onlyOutput h (.refl s), fun _ => answer_diagSizeMismatch h⟩

/-! ## Bank writes are idempotent -/

/-- A second-level row of the instance's profile at an address in range has its effect. -/
theorem rowWrite_of_inRange {p : Profile} {s : State} {a : Addr} (hp : s.cfg.profile = p)
    (ha : s.cfg.cpuWindowLo.toNat ≤ a.toNat) (effect : State → State) (v : Byte) :
    rowWrite p effect a v s = .next ((effect s).setOutput .none none) :=
  if_pos ⟨hp, (cpuInRange_iff s a).mpr ha⟩

/-- A second-level row of any profile below `CPU_WINDOW_LO` is a `cpu_write` out of range (R109). -/
theorem rowWrite_of_outOfRange {s : State} {a : Addr} (ha : a.toNat < s.cfg.cpuWindowLo.toNat) (p : Profile)
    (effect : State → State) (v : Byte) :
    rowWrite p effect a v s = .next (s.setOutput .none (some (.invalidAddress a))) := by
  rcases rowWrite_cases p effect a v s with ⟨-, hlo, -⟩ | ⟨-, erow⟩
  · omega
  · rcases busWrite_cases a v s with ⟨-, ebus⟩ | ⟨hlo, -⟩ | ⟨hlo, -⟩ | ⟨hlo, -⟩
    · exact erow.trans ebus
    all_goals omega

/-- The actions that write a bank register. -/
inductive WritesBank : Action Byte → Prop
  | prg (i : Fin 4) (v : Byte) : WritesBank (.prgBank i v)
  | chr (j : Fin 8) (v : Byte) : WritesBank (.chrBank j v)

theorem bankDataAction_writesBank (sel : BitVec 3) (v : Byte) : WritesBank (bankDataAction sel v) := by
  unfold bankDataAction
  split
  · exact .chr _ v
  · split <;> exact .prg _ v

theorem WritesBank.sel {act : Action Byte} (h : WritesBank act) (s : State) : (applyAction act s).sel = s.sel := by
  cases h <;> rfl

/-- A bank register written once more with the same value holds what it held (R132). -/
theorem WritesBank.applyAction_again {act : Action Byte} (h : WritesBank act) (s : State) (r : Response)
    (d : Option Diag) :
    (applyAction act ((applyAction act s).setOutput r d)).setOutput r d = (applyAction act s).setOutput r d := by
  cases h <;> simp [applyAction, State.setPrgBank, State.setChrBank, State.setOutput]

/-- A row that writes one bank register, chosen by `sel` at most, is idempotent in its own profile (R67). -/
theorem rowWrite_bank_again {p : Profile} {act : BitVec 3 → Action Byte} {a : Addr} {v : Byte} {s t : State}
    (hact : ∀ sel, WritesBank (act sel)) (hp : s.cfg.profile = p)
    (h : rowWrite p (fun s => applyActions [act s.sel] s) a v s = .next t) :
    rowWrite p (fun s => applyActions [act s.sel] s) a v t = .next t := by
  have hcfg : t.cfg = s.cfg := (rowWrite_keepsHost h (applyActions_writes _ s)).cfg
  rcases Nat.lt_or_ge a.toNat s.cfg.cpuWindowLo.toNat with ha | ha
  · rw [rowWrite_of_outOfRange ha] at h
    rw [rowWrite_of_outOfRange (hcfg ▸ ha)]
    cases h
    rfl
  · rw [rowWrite_of_inRange hp ha] at h
    rw [rowWrite_of_inRange (hcfg ▸ hp) (hcfg ▸ ha)]
    cases h
    have hsel : ((applyAction (act s.sel) s).setOutput .none none).sel = s.sel := (hact s.sel).sel s
    simp only [applyActions, List.foldl_cons, List.foldl_nil, hsel, (hact s.sel).applyAction_again]

/-- Settles O48: each of the four rows writes one bank register (`rowWrite_bank_again`). -/
theorem bankWritesAreIdempotent : Obligations.BankWritesAreIdempotent := by
  unfold Obligations.BankWritesAreIdempotent
  rintro s t a v i (⟨hp, rfl⟩ | ⟨hp, rfl | rfl | rfl⟩) h
  · exact rowWrite_bank_again (fun sel => bankDataAction_writesBank sel v) hp h
  · exact rowWrite_bank_again (act := fun _ => .prgBank 0 v) (fun _ => .prg 0 v) hp h
  · exact rowWrite_bank_again (act := fun _ => .chrBank (chrLoIndex a) v) (fun _ => .chr _ v) hp h
  · exact rowWrite_bank_again (act := fun _ => .chrBank (chrHiIndex a) v) (fun _ => .chr _ v) hp h

end Sys2Proof.Machine

/-! # Proofs of the obligations cited from `30_encoding`

## The reading of a word -/

namespace Sys2Proof

/-- The transaction `i` is a reading of word `w` in profile `p`: it is well-formed, `p` has it, and its word is `w`
(R80, R90). -/
structure Reads (p : Profile) (w : Word) (i : Instr) : Prop where
  word : encode i = w
  wf : i.wf = true
  readIn : i.readIn p = true

/-! ### What a register write is decoded to -/

/-- One branch of a profile's decode. -/
theorem reads_ite {c : Prop} [Decidable c] {p : Profile} {w : Word} {i j : Instr} (hi : c → Reads p w i)
    (hj : ¬ c → Reads p w j) : Reads p w (if c then i else j) := by
  split
  · exact hi ‹_›
  · exact hj ‹_›

/-- A pattern's match is at most the address that has it. -/
theorem toNat_le_of_and_eq {a m c : Addr} (h : a &&& m = c) : c.toNat ≤ a.toNat := by
  rw [← h, BitVec.toNat_and]
  exact Nat.and_le_left

/-- The rows of Profile S: `S_RESET` takes every register write with bit 7 set, so the other rows, all of them at
0x8000 and above, see bit 7 clear (R88, R242). -/
theorem decodeWriteS_reads (a : Addr) (v : Byte) : Reads .S (mkWord 0x1#4 a v) (decodeWriteS a v) := by
  unfold decodeWriteS
  refine reads_ite (fun h => ⟨rfl, by simp [Instr.wf, h], rfl⟩) fun hreset => ?_
  have hshift (ha : 0x8000 ≤ a.toNat) : v &&& 0x80#8 = 0#8 := by
    rw [← bit7_clear_iff, Bool.eq_false_iff, ne_eq, bit7_iff]
    have hmsb : a &&& 0x8000#16 = 0x8000#16 := by
      simp only [and_8000_eq_iff, BitVec.reduceToNat]
      omega
    exact fun hv => hreset ⟨hmsb, hv⟩
  repeat' refine reads_ite (fun h => ⟨rfl, Bool.and_eq_true_iff.mpr ⟨beq_iff_eq.mpr h, beq_iff_eq.mpr
    (hshift (.trans (by decide) (toNat_le_of_and_eq h)))⟩, rfl⟩) fun _ => ?_
  simp only [and_E000_eq_iff, BitVec.reduceToNat] at *
  exact ⟨rfl, rfl, decide_eq_true (by omega)⟩

/-- The eight rows of Profile E, by `a & 0xE001` (R248). -/
theorem decodeWriteE_reads (a : Addr) (v : Byte) : Reads .E (mkWord 0x1#4 a v) (decodeWriteE a v) := by
  unfold decodeWriteE
  repeat' refine reads_ite (fun h => ⟨rfl, beq_iff_eq.mpr h, rfl⟩) fun _ => ?_
  simp only [and_E001_eq_iff, BitVec.reduceToNat] at *
  exact ⟨rfl, rfl, decide_eq_true (by omega)⟩

/-- The eleven rows of Profile C, by `a[15:12]`, and from 0xF000 by `a & 0xF003` (R257). -/
theorem decodeWriteC_reads (a : Addr) (v : Byte) : Reads .C (mkWord 0x1#4 a v) (decodeWriteC a v) := by
  unfold decodeWriteC
  repeat' refine reads_ite (fun h => ⟨rfl, beq_iff_eq.mpr h, rfl⟩) fun _ => ?_
  simp only [and_F000_eq_iff, and_F003_eq_iff, BitVec.reduceToNat] at *
  exact ⟨rfl, rfl, decide_eq_true (by omega)⟩

/-- A register write is decoded to a reading of its word (R89, R90). -/
theorem decodeWrite_reads (p : Profile) (a : Addr) (v : Byte) : Reads p (mkWord 0x1#4 a v) (decodeWrite p a v) := by
  cases p with
  | S => exact decodeWriteS_reads a v
  | E => exact decodeWriteE_reads a v
  | C => exact decodeWriteC_reads a v
  | other d => exact ⟨rfl, rfl, rfl⟩

/-! ### A decoded word -/

/-- A kind that uses `a16` only is read where `d8` is zero (R82). -/
theorem usesA16_eq_ok {a : Addr} {d : Byte} {f : Addr → Instr} {i : Instr} (h : usesA16 a d f = .ok i) :
    d = 0#8 ∧ i = f a := by
  unfold usesA16 at h
  split at h
  · next hd => exact ⟨hd, (Except.ok.inj h).symm⟩
  · cases h

/-- A kind that uses neither field is read where both are zero (R82). -/
theorem usesNone_eq_ok {a : Addr} {d : Byte} {i j : Instr} (h : usesNone a d j = .ok i) :
    a = 0#16 ∧ d = 0#8 ∧ i = j := by
  unfold usesNone at h
  split at h
  · next hzero => exact ⟨hzero.1, hzero.2, (Except.ok.inj h).symm⟩
  · cases h

/-- What a kind is decoded to is a reading of the word of the fields, kind by kind of R81. -/
theorem decodeKind_reads {p : Profile} {k : BitVec 4} {a : Addr} {d : Byte} {i : Instr}
    (h : decodeKind p k.toNat a d = .ok i) : Reads p (mkWord k a d) i := by
  have hofNat : BitVec.ofNat 4 k.toNat = k := by simp
  rw [← hofNat]
  unfold decodeKind at h
  split at h
  case h_1 hk | h_3 hk | h_7 hk | h_11 hk =>
    obtain ⟨rfl, rfl⟩ := usesA16_eq_ok h
    rw [hk]
    exact ⟨rfl, rfl, rfl⟩
  case h_2 hk =>
    cases h
    rw [hk]
    exact decodeWrite_reads p a d
  case h_4 hk | h_12 hk =>
    cases h
    rw [hk]
    exact ⟨rfl, rfl, rfl⟩
  case h_15 => cases h
  all_goals
    next hk =>
    obtain ⟨rfl, rfl, rfl⟩ := usesNone_eq_ok h
    rw [hk]
    exact ⟨rfl, rfl, rfl⟩

/-- What `decode` answers is a reading of the word; with `rsv` zero the word is that of its fields (R83). -/
theorem decode_reads {p : Profile} {w : Word} {i : Instr} (h : decode p w = .ok i) : Reads p w i := by
  unfold decode at h
  split at h
  · cases h
  · split at h
    · cases h
    · next hrsv =>
      rw [← mkWord_fields w (not_not.mp hrsv)]
      exact decodeKind_reads h

/-! ### A reading is decoded -/

/-- A `cpu_write` below the register range is no row of any profile (R90). -/
theorem decodeWrite_of_low {a : Addr} (ha : a.toNat < 0x8000) (p : Profile) (v : Byte) :
    decodeWrite p a v = .cpuWrite a v :=
  have h := decodeWrite_reads p a v
  Machine.eq_cpuWrite_of_low h.wf h.word (by omega)

/-- A row of `a & 0xF003` lies in the nibble 0xF of `a[15:12]`, past the rows of the other nibbles (R257). -/
theorem and_F000_of_and_F003 {a c : Addr} (h : a &&& 0xF003#16 = c) : a &&& 0xF000#16 = c &&& 0xF000#16 := by
  rw [← h, BitVec.and_assoc]
  rfl

/-- A profile decodes a register write to the reading it has of it: the row's pattern decides each test of the
profile's decode. -/
theorem decodeWrite_of_reads {p : Profile} {a : Addr} {v : Byte} {i : Instr} (h : Reads p (mkWord 0x1#4 a v) i) :
    decodeWrite p a v = i := by
  obtain ⟨hword, hwf, hp⟩ := h
  cases i
  all_goals obtain ⟨hkind, rfl, rfl⟩ := mkWord_inj hword
  case cpuWrite =>
    cases p with
    | other d => rfl
    | S | E | C => exact decodeWrite_of_low (of_decide_eq_true hp) _ _
  case cpuRead | ppuRead | ppuWrite | reset | scanline | clock | irqState | irqClear | getMirror | saveRead | saveWrite
      | dirtyRead | dirtyClear => exact absurd hkind (by decide)
  all_goals
    obtain rfl := beq_iff_eq.mp hp
    simp only [Instr.wf, Bool.and_eq_true, beq_iff_eq] at hwf
  case sReset | sShiftControl | sShiftChr0 | sShiftChr1 | sShiftPrg => simp [decodeWrite, decodeWriteS, hwf]
  case eBankSelect | eBankData | eMirror | eRamProtect | eIrqLatch | eIrqReload | eIrqDisable | eIrqEnable =>
    simp [decodeWrite, decodeWriteE, hwf]
  case cIrqLatch | cIrqControl | cIrqAck | cIgnoredF3 =>
    simp [decodeWrite, decodeWriteC, hwf, and_F000_of_and_F003 hwf]
  all_goals simp [decodeWrite, decodeWriteC, hwf]

/-- A register write's word is read through the profile's rows (R89). -/
theorem decode_registerWrite (p : Profile) (a : Addr) (v : Byte) :
    decode p (mkWord 0x1#4 a v) = .ok (decodeWrite p a v) := (decode_mkWord p 0x1#4 a v).trans rfl

/-- Every reading of a word is what `decode` answers. -/
theorem decode_of_reads {p : Profile} {w : Word} {i : Instr} (h : Reads p w i) : decode p w = .ok i := by
  obtain rfl := h.word
  cases i
  case cpuRead | ppuRead | ppuWrite | reset | scanline | clock | irqState | irqClear | getMirror | saveRead | saveWrite
      | dirtyRead | dirtyClear => exact (decode_mkWord p _ _ _).trans rfl
  all_goals exact (decode_registerWrite p _ _).trans (congrArg Except.ok (decodeWrite_of_reads h))

/-- Settles O1: the transaction is a reading of its own word (`decode_of_reads`). -/
theorem encodeThenDecodeGivesTheTransaction : Obligations.EncodeThenDecodeGivesTheTransaction := by
  unfold Obligations.EncodeThenDecodeGivesTheTransaction
  exact fun p i hwf hp => decode_of_reads ⟨rfl, hwf, hp⟩

/-- Settles O2: what `decode` answers is a reading of the word (`decode_reads`). -/
theorem decodedTransactionEncodesToItsWord : Obligations.DecodedTransactionEncodesToItsWord := by
  unfold Obligations.DecodedTransactionEncodesToItsWord
  intro p w i h
  obtain ⟨hword, hwf, hp⟩ := decode_reads h
  exact ⟨hword, hwf, hp⟩

end Sys2Proof

/-! ## The refused words -/

namespace Sys2Proof

/-- A kind that uses `a16` only refuses a word with a `d8`, and for no other reason (R82). -/
theorem usesA16_eq_error_iff {a : Addr} {d : Byte} {f : Addr → Instr} {e : DecodeError} :
    usesA16 a d f = .error e ↔ d ≠ 0#8 ∧ e = .unusedField := by
  unfold usesA16
  split
  · next h => simp [h]
  · next h => simp [h, eq_comm (a := e)]

/-- A kind that uses neither field refuses a word with one of them, and for no other reason (R82). -/
theorem usesNone_eq_error_iff {a : Addr} {d : Byte} {i : Instr} {e : DecodeError} :
    usesNone a d i = .error e ↔ ¬ (a = 0#16 ∧ d = 0#8) ∧ e = .unusedField := by
  unfold usesNone
  split
  · next h => simp [h]
  · next h => simp [h, eq_comm (a := e)]

/-- A kind of R81 refuses the fields whose cell in its row says "no", and for no other reason (R82, R86 c). -/
theorem decodeKind_eq_error_iff {p : Profile} {k : Nat} (hk : k < 0xE) {a : Addr} {d : Byte} {e : DecodeError} :
    decodeKind p k a d = .error e ↔
      ((k ∈ [0x0, 0x2, 0x6, 0xA] ∧ d ≠ 0#8) ∨ (k ∈ [0x4, 0x5, 0x7, 0x8, 0x9, 0xC, 0xD] ∧ ¬ (a = 0#16 ∧ d = 0#8))) ∧
      e = .unusedField := by
  interval_cases k <;> simp [decodeKind, usesA16_eq_error_iff, usesNone_eq_error_iff]

/-- R86 (c) by the fields: with `rsv` zero the low 24 bits are `a16` and `d8`. -/
theorem unusedNonZero_iff {w : Word} (hrsv : ¬ rsvNonZero w) :
    unusedNonZero w ↔ ((kindField w).toNat ∈ [0x0, 0x2, 0x6, 0xA] ∧ d8Field w ≠ 0#8) ∨
      ((kindField w).toNat ∈ [0x4, 0x5, 0x7, 0x8, 0x9, 0xC, 0xD] ∧ ¬ (a16Field w = 0#16 ∧ d8Field w = 0#8)) := by
  unfold rsvNonZero at hrsv
  have hlow : w.toNat % 2 ^ 24 = 0 ↔ a16Field w = 0#16 ∧ d8Field w = 0#8 := by
    simp only [← BitVec.toNat_inj, a16Field_toNat, d8Field_toNat, BitVec.reduceToNat]
    omega
  have hd8 : w.toNat % 2 ^ 8 = 0 ↔ d8Field w = 0#8 := by
    simp only [← BitVec.toNat_inj, d8Field_toNat, BitVec.reduceToNat]
  rw [unusedNonZero, kindField_toNat, ne_eq, ne_eq, hlow, hd8]

/-- Which reason the decoder names: the first of R86's that applies (log entry 12). -/
theorem decode_eq_error_iff {p : Profile} {w : Word} {e : DecodeError} :
    decode p w = .error e ↔
      (kindReserved w ∧ e = .reservedKind) ∨ (¬ kindReserved w ∧ rsvNonZero w ∧ e = .reservedField) ∨
      (¬ kindReserved w ∧ ¬ rsvNonZero w ∧ unusedNonZero w ∧ e = .unusedField) := by
  have hkind : 0xE ≤ (kindField w).toNat ↔ kindReserved w := by rw [kindField_toNat, kindReserved]
  have hrsv : rsvField w ≠ 0#4 ↔ rsvNonZero w := by rw [rsvNonZero, ← rsvField_toNat, BitVec.toNat_ne]; rfl
  unfold decode
  split
  · next hk => simp [hkind.mp hk, eq_comm]
  · next hk =>
    split
    · next hr => simp [hkind.not.mp hk, hrsv.mp hr, eq_comm]
    · next hr =>
      rw [decodeKind_eq_error_iff (Nat.not_le.mp hk), ← unusedNonZero_iff (hrsv.not.mp hr)]
      simp [hkind.not.mp hk, hrsv.not.mp hr]

namespace Machine

theorem busWrite_ne_refused (a : Addr) (v : Byte) (s : State) (r : Refusal) : busWrite a v s ≠ .refused r := by
  rcases busWrite_cases a v s with ⟨-, e⟩ | ⟨-, -, e⟩ | ⟨-, -, -, e⟩ | ⟨-, -, e⟩ <;> rw [e] <;> nofun

theorem rowWrite_ne_refused (p : Profile) (effect : State → State) (a : Addr) (v : Byte) (s : State) (r : Refusal) :
    rowWrite p effect a v s ≠ .refused r := by
  rcases rowWrite_cases p effect a v s with ⟨-, -, e⟩ | ⟨-, e⟩ <;> rw [e]
  · nofun
  · exact busWrite_ne_refused a v s r

theorem readPrgRom_ne_illegalWord (a : Addr) (s : State) (w : Word) (e : DecodeError) :
    readPrgRom a s ≠ .refused (.illegalWord w e) := by
  unfold readPrgRom
  split <;> nofun

theorem readChr_ne_illegalWord (a : Addr) (s : State) (w : Word) (e : DecodeError) :
    readChr a s ≠ .refused (.illegalWord w e) := by
  unfold readChr
  split <;> nofun

theorem writeChr_ne_illegalWord (a : Addr) (v : Byte) (s : State) (w : Word) (e : DecodeError) :
    writeChr a v s ≠ .refused (.illegalWord w e) := by
  unfold writeChr
  split <;> nofun

/-- A transaction that is performed refuses no word: only a bank decode without a window stops (log entry 17). -/
theorem exec_ne_illegalWord (i : Instr) (s : State) (w : Word) (e : DecodeError) :
    exec i s ≠ .refused (.illegalWord w e) := by
  cases i
  case cpuRead a =>
    rw [exec, execCpuRead]
    split
    case h_4 => exact readPrgRom_ne_illegalWord a s w e
    all_goals nofun
  case ppuRead a =>
    rw [exec, execPpuRead]
    split
    · exact readChr_ne_illegalWord a _ w e
    · nofun
  case ppuWrite a v =>
    rw [exec, execPpuWrite]
    split
    · exact writeChr_ne_illegalWord a v _ w e
    · nofun
  case cpuWrite a v => exact busWrite_ne_refused a v s _
  case reset | scanline | clock | irqState | irqClear | getMirror | saveRead | saveWrite | dirtyRead | dirtyClear =>
    nofun
  case sReset a v =>
    rw [exec, execSReset]
    exact rowWrite_ne_refused .S _ a v s _
  all_goals exact rowWrite_ne_refused _ _ _ _ s _

/-- A step refuses its word exactly where the decoder does, and for the decoder's reason (R86). -/
theorem step_eq_illegalWord_iff {s : State} {w : Word} {rest : List Word} (hs : s.stream = w :: rest)
    {e : DecodeError} : step s = .refused (.illegalWord w e) ↔ decode s.cfg.profile w = .error e := by
  simp only [step, hs, perform]
  cases decode s.cfg.profile w with
  | error reason => simp
  | ok i => simp [exec_ne_illegalWord]

/-- Settles O3: the step refuses with the decoder's reason (`step_eq_illegalWord_iff`), the first of R86's that applies
(`decode_eq_error_iff`). -/
theorem exactlyTheIllegalWordsAreRefused : Obligations.ExactlyTheIllegalWordsAreRefused := by
  unfold Obligations.ExactlyTheIllegalWordsAreRefused
  intro s w rest hs
  simp only [step_eq_illegalWord_iff hs, decode_eq_error_iff]
  by_cases hkind : kindReserved w
  · simp [hkind]
  · by_cases hrsv : rsvNonZero w
    · simp [hkind, hrsv]
    · simp [hkind, hrsv]

end Machine
end Sys2Proof

/-! ## The rows of the opcode table -/

namespace Sys2Proof

/-- A word is given by its fields (R80). -/
theorem eq_iff_fields {w w' : Word} : w = w' ↔
    kindField w = kindField w' ∧ rsvField w = rsvField w' ∧ a16Field w = a16Field w' ∧ d8Field w = d8Field w' := by
  refine ⟨fun h => by simp [h], fun ⟨hk, hr, ha, hd⟩ => BitVec.eq_of_toNat_eq ?_⟩
  simp only [← BitVec.toNat_inj, kindField_toNat, rsvField_toNat, a16Field_toNat, d8Field_toNat] at hk hr ha hd
  omega

/-- A register write, by the fields of its word (R61, R89). -/
theorem registerWrite_word_iff (w : Word) : (0x10800000 ≤ w.toNat ∧ w.toNat ≤ 0x10FFFFFF) ↔
    kindField w = 0x1#4 ∧ rsvField w = 0#4 ∧ 0x8000 ≤ (a16Field w).toNat := by
  simp only [← BitVec.toNat_inj, kindField_toNat, rsvField_toNat, a16Field_toNat, BitVec.reduceToNat]
  omega

/-- A row's mask and match select the words of kind 1 with a zero `rsv` whose operands are well-formed for the row
(R88 to R90, R243 to R265). -/
theorem row_selects_iff (w : Word) : ∀ r ∈ secondLevelRows, w &&& r.2.1 = r.2.2.1 ↔
    kindField w = 0x1#4 ∧ rsvField w = 0#4 ∧ (r.2.2.2 (a16Field w) (d8Field w)).wf = true := by
  have hfull (k : BitVec 4) : k &&& 15#4 = k := BitVec.and_allOnes
  intro r hr
  obtain ⟨hk, hv, ha, hd⟩ := fields_and w r.2.1
  rw [eq_iff_fields, hk, hv, ha, hd]
  revert r
  simp only [secondLevelRows, List.cons_append, List.nil_append, List.forall_mem_cons]
  and_intros <;> simp [Instr.wf, kindField, rsvField, a16Field, d8Field, hfull]

/-- A row stands for the `cpu_write` of its operands, in its own profile (R90). -/
theorem row_word_readIn (a : Addr) (v : Byte) : ∀ r ∈ secondLevelRows,
    encode (r.2.2.2 a v) = mkWord 0x1#4 a v ∧ (r.2.2.2 a v).readIn r.1 = true := by
  simp [secondLevelRows, encode, Instr.readIn]

/-- A row's operands are well-formed exactly where the row's profile decodes the write to it. -/
theorem row_wf_iff_decodeWrite (a : Addr) (v : Byte) {r : Profile × Word × Word × (Addr → Byte → Instr)}
    (hr : r ∈ secondLevelRows) : (r.2.2.2 a v).wf = true ↔ decodeWrite r.1 a v = r.2.2.2 a v := by
  obtain ⟨hword, hreadIn⟩ := row_word_readIn a v r hr
  refine ⟨fun hwf => decodeWrite_of_reads ⟨hword, hwf, hreadIn⟩, fun h => ?_⟩
  rw [← h]
  exact (decodeWrite_reads r.1 a v).wf

/-- A reading of a register write in a reference profile is one row of that profile, and the reading of a `cpu_write`
below the register range is none (R90). -/
theorem Reads.rowCount {p : Profile} (hp : p ∈ [Profile.S, Profile.E, Profile.C]) {a : Addr} {v : Byte} {i : Instr}
    (h : Reads p (mkWord 0x1#4 a v) i) :
    (secondLevelRows.filter fun r => r.1 == p && i == r.2.2.2 a v).length = if 0x8000 ≤ a.toNat then 1 else 0 := by
  obtain ⟨hword, hwf, hreadIn⟩ := h
  split
  · next ha =>
    cases i
    all_goals obtain ⟨hkind, rfl, rfl⟩ := mkWord_inj hword
    case cpuWrite =>
      cases p with
      | S | E | C => exact absurd ha (Nat.not_le.mpr (of_decide_eq_true hreadIn))
      | other d => simp at hp
    case cpuRead | ppuRead | ppuWrite | reset | scanline | clock | irqState | irqClear | getMirror | saveRead
        | saveWrite | dirtyRead | dirtyClear => exact absurd hkind (by decide)
    all_goals
      obtain rfl := beq_iff_eq.mp hreadIn
      simp [secondLevelRows]
  · next ha =>
    obtain rfl := Machine.eq_cpuWrite_of_low hwf hword (by omega)
    simp [secondLevelRows]

/-- Settles O5: the rows that select a word of kind 1 are those its `cpu_write` is decoded to (`row_selects_iff`,
`row_wf_iff_decodeWrite`), of which there is one in the register range and none below it (`Reads.rowCount`). -/
theorem everyRegisterWriteMatchesOneRow : Obligations.EveryRegisterWriteMatchesOneRow := by
  unfold Obligations.EveryRegisterWriteMatchesOneRow
  intro p hp w
  by_cases hw : kindField w = 0x1#4 ∧ rsvField w = 0#4
  · have hselects : ∀ r ∈ secondLevelRows, (r.1 == p && w &&& r.2.1 == r.2.2.1) =
        (r.1 == p && decodeWrite p (a16Field w) (d8Field w) == r.2.2.2 (a16Field w) (d8Field w)) := fun r hr => by
      rw [Bool.eq_iff_iff, Bool.and_eq_true, Bool.and_eq_true]
      refine and_congr_right fun hrp => ?_
      rw [beq_iff_eq, beq_iff_eq, row_selects_iff w r hr, row_wf_iff_decodeWrite _ _ hr, beq_iff_eq.mp hrp]
      exact ⟨fun h => h.2.2, fun h => ⟨hw.1, hw.2, h⟩⟩
    rw [List.filter_congr hselects, (decodeWrite_reads p _ _).rowCount hp]
    simp only [registerWrite_word_iff, hw, true_and]
  · have hnone : ∀ r ∈ secondLevelRows, ¬ (r.1 == p && w &&& r.2.1 == r.2.2.1) = true := fun r hr h =>
      have hsel := (row_selects_iff w r hr).mp (beq_iff_eq.mp (Bool.and_eq_true_iff.mp h).2)
      hw ⟨hsel.1, hsel.2.1⟩
    rw [List.filter_eq_nil_iff.mpr hnone, if_neg fun h => ?_, List.length_nil]
    have hreg := (registerWrite_word_iff w).mp h
    exact hw ⟨hreg.1, hreg.2.1⟩

end Sys2Proof

/-! ## A row and its `cpu_write` -/

namespace Sys2Proof.Machine

/-- A row whose effect in its own profile is the register write is the `cpu_write` in every state (R90, R109). -/
theorem rowWrite_eq_busWrite {p : Profile} {effect : State → State} {a : Addr} {v : Byte} {s : State}
    (ha : 0x8000 ≤ a.toNat) (heffect : s.cfg.profile = p → effect s = registerWrite a v s) :
    rowWrite p effect a v s = busWrite a v s := by
  rcases rowWrite_cases p effect a v s with ⟨hp, hlo, erow⟩ | ⟨-, erow⟩
  · rw [erow, heffect hp]
    rcases busWrite_cases a v s with ⟨hout, -⟩ | ⟨-, hlow, -⟩ | ⟨-, -, hram, -⟩ | ⟨-, -, ebus⟩
    · omega
    · omega
    · omega
    · exact ebus.symm
  · exact erow

theorem byteField_all (v : Byte) : byteField v 0 8 = v := by simp [byteField]

/-! ### Profile S -/

/-- The target map of Profile S looks at no more than `a & 0xE000` (R242). -/
theorem serialTarget_S {a c : Addr} (h : a &&& 0xE000#16 = c) :
    profileS.serialTarget.lookup a = profileS.serialTarget.lookup c := by
  subst h
  simp [profileS, TargetMap.lookup]

/-- Two commits that agree where the shift register has been written give the same shift write. -/
theorem serialShift_congr {b : Bool} {commit commit' : BitVec 5 → State → State} {s : State}
    (h : ∀ x, commit x (s.setSerial x s.count) = commit' x (s.setSerial x s.count)) :
    serialShift b commit s = serialShift b commit' s := by
  simp only [serialShift, h]

/-- A commit of Profile S performs its target's actions on the committed value (R203). -/
theorem commitTarget_S {s : State} (hp : s.cfg.profile = .S) (t : Target) (a : Addr) (x : BitVec 5) :
    commitTarget t a x s = applyActions (profileS.commitDecode t s.sel a x) s := by
  rw [commitTarget, hp, Profile.data]

/-- A shift row of Profile S is the serial write, its commit being the one of its target (R202, R244 to R247). -/
theorem shiftRow_eq_busWrite {acts : BitVec 5 → List (Action Byte)} {t : Target} {a c : Addr} {v : Byte} {s : State}
    (hc : 0x8000 ≤ c.toNat) (ha : a &&& 0xE000#16 = c) (hv : v &&& 0x80#8 = 0#8)
    (ht : profileS.serialTarget.lookup c = t) (hacts : ∀ sel x, profileS.commitDecode t sel a x = acts x) :
    rowWrite .S (serialShift (v.getLsbD 0) fun x => applyActions (acts x)) a v s = busWrite a v s := by
  refine rowWrite_eq_busWrite (hc.trans (toNat_le_of_and_eq ha)) fun hp => ?_
  have hserial : s.cfg.profile.data.serial = true := by rw [hp]; rfl
  rw [registerWrite, if_pos hserial, serialWrite, if_neg (by rw [(bit7_clear_iff v).mpr hv]; decide), hp, Profile.data,
    serialTarget_S ha, ht]
  refine serialShift_congr fun x => ?_
  rw [commitTarget_S (by rw [← hp]; rfl), hacts]

/-- The actions that the fifth write to a target commits (R244 to R247). -/
theorem commitDecode_S (a : Addr) :
    (∀ sel x, profileS.commitDecode .t0 sel a x = [.mirrorField (byteField (x.setWidth 8) 0 2),
      .prgMode (byteField (x.setWidth 8) 2 2), .chrMode (byteField (x.setWidth 8) 4 1)]) ∧
    (∀ sel x, profileS.commitDecode .t1 sel a x = [.chrBank 0 (x.setWidth 8)]) ∧
    (∀ sel x, profileS.commitDecode .t2 sel a x = [.chrBank 1 (x.setWidth 8)]) ∧
    (∀ sel x, profileS.commitDecode .t3 sel a x =
      [.prgBank 0 (byteField (x.setWidth 8) 0 4), .ramEnable (bitByte (!x.getLsbD 4))]) := by
  have hbyte (x : BitVec 5) : byteField (x.setWidth 8) 0 5 = x.setWidth 8 := by revert x; decide
  simp [ProfileData.commitDecode, ProfileData.produces, profileS, Commits.of, decodeActions, commitRow,
    WriteRow.claims, Action.map, Operand.eval, Action.isIrq, hbyte]

/-- `S_RESET` is the serial write of a byte with bit 7 set (R201, R243). -/
theorem resetRow_eq_busWrite {a : Addr} {v : Byte} {s : State} (ha : a &&& 0x8000#16 = 0x8000#16)
    (hv : v &&& 0x80#8 = 0x80#8) : execSReset a v s = busWrite a v s := by
  refine rowWrite_eq_busWrite (toNat_le_of_and_eq ha) fun hp => ?_
  rw [registerWrite, serialWrite, (bit7_iff v).mpr hv, serialReset, hp]
  rfl

/-! ### Profiles E and C -/

/-- A row of a profile with a direct decode is the `cpu_write` if its actions are those the table gives (R241). -/
theorem directRow_eq_busWrite {p : Profile} {acts : BitVec 3 → List (Action Byte)} {a : Addr} {v : Byte} {s : State}
    (ha : 0x8000 ≤ a.toNat) (hserial : p.data.serial = false) (hacts : ∀ sel, p.data.writeDecode sel a v = acts sel) :
    rowWrite p (fun s => applyActions (acts s.sel) s) a v s = busWrite a v s := by
  refine rowWrite_eq_busWrite ha fun hp => ?_
  rw [registerWrite, hp, hserial, if_neg (by decide), hacts]

/-- A row of Profile E whose actions do not depend on `sel`. -/
theorem eRow_eq_busWrite {acts : List (Action Byte)} {a : Addr} {v : Byte} {s : State} (ha : 0x8000 ≤ a.toNat)
    (hacts : ∀ sel, profileE.writeDecode sel a v = acts) : rowWrite .E (applyActions acts) a v s = busWrite a v s :=
  directRow_eq_busWrite (acts := fun _ => acts) ha rfl hacts

/-- A row of Profile C; none of them depends on `sel`. -/
theorem cRow_eq_busWrite {acts : List (Action Byte)} {a : Addr} {v : Byte} {s : State} (ha : 0x8000 ≤ a.toNat)
    (hacts : ∀ sel, profileC.writeDecode sel a v = acts) : rowWrite .C (applyActions acts) a v s = busWrite a v s :=
  directRow_eq_busWrite (acts := fun _ => acts) ha rfl hacts

/-- Profile E has an engine, so its register decode is its table (R189). -/
theorem profileE_writeDecode (sel : BitVec 3) (a : Addr) (v : Byte) :
    profileE.writeDecode sel a v = decodeActions writeRowsE sel a v := rfl

/-- Profile C has an engine, so its register decode is its table (R189). -/
theorem profileC_writeDecode (sel : BitVec 3) (a : Addr) (v : Byte) :
    profileC.writeDecode sel a v = decodeActions writeRowsC sel a v := rfl

/-- The table of Profile E, row by row (R249 to R256). -/
theorem writeDecode_E (a : Addr) (v : Byte) :
    (a &&& 0xE001#16 = 0x8000#16 →
      ∀ sel, profileE.writeDecode sel a v = [.sel (byteField v 0 3), .chrMode (byteField v 7 1)]) ∧
    (a &&& 0xE001#16 = 0x8001#16 → ∀ sel, profileE.writeDecode sel a v = [bankDataAction sel v]) ∧
    (a &&& 0xE001#16 = 0xA000#16 → ∀ sel, profileE.writeDecode sel a v = [.mirrorField (byteField v 0 1)]) ∧
    (a &&& 0xE001#16 = 0xA001#16 →
      ∀ sel, profileE.writeDecode sel a v = [.ramEnable (byteField v 7 1), .ramProtect (byteField v 6 1)]) ∧
    (a &&& 0xE001#16 = 0xC000#16 → ∀ sel, profileE.writeDecode sel a v = [.irqLatch v]) ∧
    (a &&& 0xE001#16 = 0xC001#16 → ∀ sel, profileE.writeDecode sel a v = [.irqReload]) ∧
    (a &&& 0xE001#16 = 0xE000#16 → ∀ sel, profileE.writeDecode sel a v = [.irqEnable 0]) ∧
    (a &&& 0xE001#16 = 0xE001#16 → ∀ sel, profileE.writeDecode sel a v = [.irqEnable 1]) := by
  simp only [profileE_writeDecode]
  and_intros
  case refine_2.refine_1 =>
    intro h sel
    obtain ⟨⟨k, hk⟩⟩ := sel
    interval_cases k <;>
      simp [decodeActions, writeRowsE, rowE, rowEData, WriteRow.claims, h, Action.map, Operand.eval, byteField_all,
        bankDataAction]
  all_goals
    intro h sel
    simp [decodeActions, writeRowsE, rowE, rowEData, WriteRow.claims, h, Action.map, Operand.eval, byteField_all]

/-- A pattern of `a & 0xF003` is one of `a[15:12]` and one of `a[1:0]` (R257). -/
theorem and_F003_eq_iff_fields {a c : Addr} (hc : c &&& 0xF003#16 = c) :
    a &&& 0xF003#16 = c ↔ a &&& 0xF000#16 = c &&& 0xF000#16 ∧ a.extractLsb' 0 2 = c.extractLsb' 0 2 := by
  rw [and_F003_eq_iff] at hc ⊢
  simp only [← BitVec.toNat_inj, toNat_and_F000, BitVec.extractLsb'_toNat, Nat.shiftRight_zero, Nat.reducePow]
  omega

/-- The table of Profile C in the ranges decoded by `a[15:12]` alone (R258, R259, R265). -/
theorem writeDecode_C_nibble (a : Addr) (v : Byte) :
    (a &&& 0xF000#16 = 0x8000#16 → ∀ sel, profileC.writeDecode sel a v = [.prgBank 0 v]) ∧
    (a &&& 0xF000#16 = 0x9000#16 → ∀ sel, profileC.writeDecode sel a v = [.mirrorField (byteField v 0 2)]) ∧
    (a &&& 0xF000#16 = 0xA000#16 → ∀ sel, profileC.writeDecode sel a v = []) ∧
    (a &&& 0xF000#16 = 0xD000#16 → ∀ sel, profileC.writeDecode sel a v = []) ∧
    (a &&& 0xF000#16 = 0xE000#16 → ∀ sel, profileC.writeDecode sel a v = []) := by
  simp only [profileC_writeDecode]
  and_intros
  all_goals
    intro h sel
    simp [decodeActions, writeRowsC, rowC, rowCChr, rowCIrq, WriteRow.claims, h, and_F003_eq_iff_fields, Action.map,
      Operand.eval, byteField_all]

/-- The table of Profile C in its CHR ranges: `a[1:0]` picks the register (R260, R261). -/
theorem writeDecode_C_chr (a : Addr) (v : Byte) :
    (a &&& 0xF000#16 = 0xB000#16 → ∀ sel, profileC.writeDecode sel a v = [.chrBank (chrLoIndex a) v]) ∧
    (a &&& 0xF000#16 = 0xC000#16 → ∀ sel, profileC.writeDecode sel a v = [.chrBank (chrHiIndex a) v]) := by
  have hlow : a.extractLsb' 0 2 ∈ [0#2, 1#2, 2#2, 3#2] := by
    generalize a.extractLsb' 0 2 = low
    revert low
    decide
  simp only [List.mem_cons, List.not_mem_nil, or_false] at hlow
  simp only [profileC_writeDecode, chrLoIndex, chrHiIndex]
  and_intros
  all_goals
    intro h sel
    rcases hlow with hlow | hlow | hlow | hlow <;>
      simp [decodeActions, writeRowsC, rowC, rowCChr, rowCIrq, WriteRow.claims, h, hlow, and_F003_eq_iff_fields,
        Action.map, Operand.eval, byteField_all] <;> rfl

/-- The table of Profile C in 0xF000..0xFFFF, decoded by `a & 0xF003` (R262 to R265). -/
theorem writeDecode_C_irq (a : Addr) (v : Byte) :
    (a &&& 0xF003#16 = 0xF000#16 → ∀ sel, profileC.writeDecode sel a v = [.irqLatch v]) ∧
    (a &&& 0xF003#16 = 0xF001#16 → ∀ sel, profileC.writeDecode sel a v = irqControlActions v) ∧
    (a &&& 0xF003#16 = 0xF002#16 → ∀ sel, profileC.writeDecode sel a v = [.irqAck]) ∧
    (a &&& 0xF003#16 = 0xF003#16 → ∀ sel, profileC.writeDecode sel a v = []) := by
  have hbit : ∀ v : Byte, (v &&& 1#8 = 1#8 ∧ v[0] = true) ∨ (v &&& 1#8 = 0#8 ∧ v[0] = false) := by decide
  simp only [profileC_writeDecode, irqControlActions]
  and_intros
  all_goals
    intro h sel
    rcases hbit v with ⟨hmatch, hv⟩ | ⟨hmatch, hv⟩ <;>
      simp [decodeActions, writeRowsC, rowC, rowCChr, rowCIrq, WriteRow.claims, h, and_F000_of_and_F003 h, hmatch, hv,
        Action.map, Operand.eval, byteField_all]

/-! ### Every row -/

/-- Settles O7: each row of Profile S by its target's commit (`commitDecode_S`), each row of E and C by the table of its
profile. A reading of a write below the register range is the `cpu_write` itself. -/
theorem secondLevelRowIsItsCpuWrite : Obligations.SecondLevelRowIsItsCpuWrite := by
  unfold Obligations.SecondLevelRowIsItsCpuWrite
  intro i a v s hwf hi
  rcases Nat.lt_or_ge 0x7FFF a.toNat with ha | ha
  case inr => rw [eq_cpuWrite_of_low hwf hi ha]
  -- what a register write does, under the pattern of each row
  obtain ⟨hcontrol, hchr0, hchr1, hsPrg⟩ := commitDecode_S a
  obtain ⟨hselect, hdata, heMirror, hprotect, heLatch, hreload, hdisable, henable⟩ := writeDecode_E a v
  obtain ⟨hcPrg, hcMirror, hignoredA, hignoredD, hignoredE⟩ := writeDecode_C_nibble a v
  obtain ⟨hchrLo, hchrHi⟩ := writeDecode_C_chr a v
  obtain ⟨hcLatch, hirqControl, hack, hignoredF3⟩ := writeDecode_C_irq a v
  cases i
  all_goals obtain ⟨hkind, rfl, rfl⟩ := mkWord_inj hi
  case cpuWrite => rfl
  case cpuRead | ppuRead | ppuWrite | reset | scanline | clock | irqState | irqClear | getMirror | saveRead | saveWrite
      | dirtyRead | dirtyClear => exact absurd hkind (by decide)
  all_goals simp only [Instr.wf, Bool.and_eq_true, beq_iff_eq] at hwf
  case sReset => exact resetRow_eq_busWrite hwf.1 hwf.2
  case sShiftControl => exact shiftRow_eq_busWrite (by decide) hwf.1 hwf.2 rfl hcontrol
  case sShiftChr0 => exact shiftRow_eq_busWrite (by decide) hwf.1 hwf.2 rfl hchr0
  case sShiftChr1 => exact shiftRow_eq_busWrite (by decide) hwf.1 hwf.2 rfl hchr1
  case sShiftPrg => exact shiftRow_eq_busWrite (by decide) hwf.1 hwf.2 rfl hsPrg
  case eBankSelect => exact eRow_eq_busWrite ha (hselect hwf)
  case eBankData => exact directRow_eq_busWrite (p := .E) ha rfl (hdata hwf)
  case eMirror => exact eRow_eq_busWrite ha (heMirror hwf)
  case eRamProtect => exact eRow_eq_busWrite ha (hprotect hwf)
  case eIrqLatch => exact eRow_eq_busWrite ha (heLatch hwf)
  case eIrqReload => exact eRow_eq_busWrite ha (hreload hwf)
  case eIrqDisable => exact eRow_eq_busWrite ha (hdisable hwf)
  case eIrqEnable => exact eRow_eq_busWrite ha (henable hwf)
  case cPrg => exact cRow_eq_busWrite ha (hcPrg hwf)
  case cMirror => exact cRow_eq_busWrite ha (hcMirror hwf)
  case cChrLo => exact cRow_eq_busWrite ha (hchrLo hwf)
  case cChrHi => exact cRow_eq_busWrite ha (hchrHi hwf)
  case cIrqLatch => exact cRow_eq_busWrite ha (hcLatch hwf)
  case cIrqControl => exact cRow_eq_busWrite ha (hirqControl hwf)
  case cIrqAck => exact cRow_eq_busWrite ha (hack hwf)
  case cIgnoredA => exact cRow_eq_busWrite ha (hignoredA hwf)
  case cIgnoredD => exact cRow_eq_busWrite ha (hignoredD hwf)
  case cIgnoredE => exact cRow_eq_busWrite ha (hignoredE hwf)
  case cIgnoredF3 => exact cRow_eq_busWrite ha (hignoredF3 hwf)

end Sys2Proof.Machine

/-! # Proofs of the obligations cited from `40_interface_registry`

## The windows of a tiling -/

namespace Sys2Proof

/-- The windows of a layout that answer an address, counted by their spans (R120). -/
theorem length_filter_spans {α : Type} (span : α → Nat × Nat) (layout : List α) (a : Nat) :
    ((layout.map span).filter (spanAnswers · a)).length =
      (layout.filter fun w => decide ((span w).1 ≤ a ∧ a < (span w).1 + (span w).2)).length := by
  rw [List.filter_map, List.length_map]
  simp only [Function.comp_def, spanAnswers, Bool.decide_and]

/-- Settles O20: a tiling has exactly one window for each address of its range. -/
theorem exactlyOneWindowAnswersEachAddress : Obligations.ExactlyOneWindowAnswersEachAddress := by
  unfold Obligations.ExactlyOneWindowAnswersEachAddress
  intro d hd
  constructor
  · intro m a hlo hhi
    exact (length_filter_spans Window.span _ a).symm.trans (prgTiles_exactly_one (d.tiled_prg hd m) hlo hhi)
  · intro m a hhi
    exact (length_filter_spans Window.span _ a).symm.trans (chrTiles_exactly_one (d.tiled_chr hd m) hhi)

/-- The tiling check passes exactly where the windows have the sizes and bases of R105, cover the range once, and lie
inside it (log entry 18). -/
theorem tiles_iff {sizes : List Nat} {lo hi len grain : Nat} (hg : 0 < grain) (hsizes : ∀ z ∈ sizes, grain ∣ z)
    (hlo : grain ∣ lo) (hlen : grain ∣ len) (hhi : hi + 1 = lo + len) (layout : List RawWindow) :
    tiles sizes lo len grain (layout.map RawWindow.span) = true ↔
      coversOnce sizes lo hi layout ∧ windowsInside lo hi layout := by
  constructor
  · intro h
    have hwindow (w : RawWindow) (hw : w ∈ layout) := tiles_window h (List.mem_map_of_mem hw)
    refine ⟨⟨fun w hw => ?_, fun a h1 h2 => ?_⟩, fun w hw => ?_⟩
    · obtain ⟨hsize, hbase, -, -⟩ := hwindow w hw
      exact ⟨hsize, Nat.mod_eq_zero_of_dvd hbase⟩
    · exact (length_filter_spans RawWindow.span layout a).symm.trans
        (tiles_exactly_one hg hsizes hlo hlen h h1 (by omega))
    · obtain ⟨-, -, hle, hge⟩ := hwindow w hw
      exact ⟨hle, hge.trans_eq hhi.symm⟩
  · rintro ⟨⟨hwindow, hcover⟩, hinside⟩
    rw [tiles, Bool.and_eq_true, List.all_eq_true, List.all_eq_true]
    constructor
    · rintro _ hspan
      obtain ⟨w, hw, rfl⟩ := List.mem_map.mp hspan
      obtain ⟨hsize, hbase⟩ := hwindow w hw
      obtain ⟨hle, hge⟩ := hinside w hw
      have hend : w.base + w.size ≤ lo + len := hge.trans_eq hhi
      simp [RawWindow.span, hsize, hbase, hle, hend]
    · intro k hk
      have hblock : (k + 1) * grain ≤ len :=
        (Nat.le_div_iff_mul_le hg).mp (Nat.succ_le_of_lt (List.mem_range.mp hk))
      rw [Nat.succ_mul] at hblock
      rw [beq_iff_eq, length_filter_spans]
      exact hcover _ (Nat.le_add_right _ _) (by omega)

/-- W1 of one layout, in the words of R105. -/
theorem prgTiles_iff (layout : List RawWindow) : prgTiles (layout.map RawWindow.span) = true ↔
    coversOnce [32768, 16384, 8192] 0x8000 0xFFFF layout ∧ windowsInside 0x8000 0xFFFF layout :=
  tiles_iff (by decide) (by decide) (by decide) (by decide) (by decide) layout

/-- W2 of one layout, in the words of R105. -/
theorem chrTiles_iff (layout : List RawWindow) : chrTiles (layout.map RawWindow.span) = true ↔
    coversOnce [8192, 4096, 2048, 1024] 0x0000 0x1FFF layout ∧ windowsInside 0x0000 0x1FFF layout :=
  tiles_iff (by decide) (by decide) (by decide) (by decide) (by decide) layout

/-! ## The checks of R105 in the rule's own words -/

/-- A PRG policy names what W3 asks for. -/
theorem RawPolicy.namesPrg_iff (p : RawPolicy) : p.namesPrg = true ↔
    ∀ reg shr, p = .variable reg shr → (∃ i, i < 4 ∧ reg = .prg i) ∧ shr ≤ 7 := by
  rcases p with _ | _ | ⟨reg, shr⟩
  · simp [namesPrg]
  · simp [namesPrg]
  · cases reg <;> simp [namesPrg, Nat.lt_succ_iff]

/-- A CHR policy names what W3 asks for. -/
theorem RawPolicy.namesChr_iff (p : RawPolicy) : p.namesChr = true ↔
    ∀ reg shr, p = .variable reg shr → (∃ i, i < 8 ∧ reg = .chr i) ∧ shr ≤ 7 := by
  rcases p with _ | _ | ⟨reg, shr⟩
  · simp [namesChr]
  · simp [namesChr]
  · cases reg <;> simp [namesChr, Nat.lt_succ_iff]

theorem RawProfile.w3_iff (r : RawProfile) : r.w3 = true ↔
    (∀ layout ∈ r.prgLayout, namesRegisters .prg 4 layout) ∧ ∀ layout ∈ r.chrLayout, namesRegisters .chr 8 layout := by
  simp only [w3, namesRegisters, Bool.and_eq_true, List.all_eq_true, RawPolicy.namesPrg_iff, RawPolicy.namesChr_iff]

theorem RawProfile.w1_iff (r : RawProfile) : r.w1 = true ↔
    r.prgLayout.length = 4 ∧ ∀ layout ∈ r.prgLayout, prgTiles (layout.map RawWindow.span) = true := by
  simp only [w1, Bool.and_eq_true, beq_iff_eq, List.all_eq_true]

theorem RawProfile.w2_iff (r : RawProfile) : r.w2 = true ↔
    r.chrLayout.length = 2 ∧ ∀ layout ∈ r.chrLayout, chrTiles (layout.map RawWindow.span) = true := by
  simp only [w2, Bool.and_eq_true, beq_iff_eq, List.all_eq_true]

/-- A profile fails no check exactly where it passes all seven. -/
theorem RawProfile.failedCheck_eq_none_iff (r : RawProfile) : r.failedCheck = none ↔
    r.w1 = true ∧ r.w2 = true ∧ r.w3 = true ∧ r.w4 = true ∧ r.w5 = true ∧ r.w6 = true ∧ r.w7 = true := by
  unfold failedCheck
  constructor
  · intro h
    repeat' split at h
    all_goals simp_all
  · rintro ⟨h1, h2, h3, h4, h5, h6, h7⟩
    simp [h1, h2, h3, h4, h5, h6, h7]

/-- No window of the profile lies outside its space (log entry 18). -/
structure AllWindowsInside (r : RawProfile) : Prop where
  prg : ∀ layout ∈ r.prgLayout, windowsInside 0x8000 0xFFFF layout
  chr : ∀ layout ∈ r.chrLayout, windowsInside 0x0000 0x1FFF layout

/-- The checker accepts exactly the profiles that R105 asks for and whose windows lie inside their spaces. -/
theorem RawProfile.failedCheck_eq_none_iff_meetsR105 (r : RawProfile) :
    r.failedCheck = none ↔ MeetsR105 r ∧ AllWindowsInside r := by
  simp only [failedCheck_eq_none_iff, w1_iff, w2_iff, w3_iff, w4, w5, w6_iff, w7, prgTiles_iff, chrTiles_iff,
    decide_eq_true_eq, beq_iff_eq]
  constructor
  · rintro ⟨⟨hprg, hprgs⟩, ⟨hchr, hchrs⟩, h3, h4, h5, h6, h7⟩
    exact ⟨⟨⟨hprg, fun l hl => (hprgs l hl).1⟩, ⟨hchr, fun l hl => (hchrs l hl).1⟩, h3, h4, h5, h6, h7⟩,
      fun l hl => (hprgs l hl).2, fun l hl => (hchrs l hl).2⟩
  · rintro ⟨⟨h1, h2, h3, h4, h5, h6, h7⟩, hprg, hchr⟩
    exact ⟨⟨h1.1, fun l hl => ⟨h1.2 l hl, hprg l hl⟩⟩, ⟨h2.1, fun l hl => ⟨h2.2 l hl, hchr l hl⟩⟩, h3, h4, h5, h6, h7⟩

/-- An author's profile that fails a check is refused by its name (R105). -/
theorem RegistryEntry.profile_of_failedCheck {r : RawProfile} {check : ProfileCheck}
    (h : r.failedCheck = some check) : (RegistryEntry.variant r).profile = .error check := by
  simp only [profile, h]

/-- An author's profile that fails no check becomes the profile of its data. -/
theorem RegistryEntry.profile_of_checked {r : RawProfile} (h : r.failedCheck = none) :
    (RegistryEntry.variant r).profile = .ok (.other r.toData) := by
  simp only [profile, h]

/-- Where the checker refuses a profile, construction gives no instance (R105). -/
theorem Machine.construct_of_refused {registry : Nat → Option RegistryEntry} {c : Cartridge} {entry : RegistryEntry}
    {check : ProfileCheck} (hentry : registry c.mapperNumber = some entry) (hp : entry.profile = .error check)
    (env : Environment) (d : Draws) : construct registry env c d = .profileRefused check := by
  simp only [construct, hentry, hp]

/-- Settles O18: the checker accepts no profile but those R105 asks for
(`RawProfile.failedCheck_eq_none_iff_meetsR105`). -/
theorem illFormedProfilesAreRefused : Obligations.IllFormedProfilesAreRefused := by
  unfold Obligations.IllFormedProfilesAreRefused
  constructor
  · intro e he
    simp only [List.mem_cons, List.not_mem_nil, or_false] at he
    rcases he with rfl | rfl | rfl
    · exact ⟨.S, rfl, tiled_S⟩
    · exact ⟨.E, rfl, tiled_E⟩
    · exact ⟨.C, rfl, tiled_C⟩
  · intro r hr
    have hfails : r.failedCheck ≠ none := fun h => hr (r.failedCheck_eq_none_iff_meetsR105.mp h).1
    obtain ⟨check, hcheck⟩ := Option.ne_none_iff_exists'.mp hfails
    have hrefused := RegistryEntry.profile_of_failedCheck hcheck
    refine ⟨⟨check, hrefused⟩, fun registry env c d s hentry hs => ?_⟩
    rw [Machine.construct_of_refused hentry hrefused] at hs
    cases hs

/-! ## A checked profile has its author's fields -/

/-- A vector filled from a list of its length, position by position, has the list's entries. -/
theorem toList_ofFn_getD {α β : Type} {n : Nat} {l : List α} (hl : l.length = n) (f : α → β) (dflt : α) :
    (Vector.ofFn fun i : Fin n => f (l.getD i dflt)).toList = l.map f := by
  subst hl
  exact List.ext_getElem (by simp) fun i h1 h2 => by simp

/-- A layout that names registers of its file only comes back from its checked form as it was written (W3). -/
theorem map_toRaw_toWindow {file : Nat → BankReg} (hfile : file = .prg ∨ file = .chr) {n : Nat}
    {layout : List RawWindow} (h : namesRegisters file (n + 1) layout) :
    (layout.map (RawWindow.toWindow n)).map (Window.toRaw file) = layout := by
  rw [List.map_map]
  refine (List.map_congr_left fun w hw => ?_).trans (List.map_id layout)
  obtain ⟨base, size, _ | _ | ⟨reg, shr⟩⟩ := w
  · rfl
  · rfl
  · obtain ⟨⟨i, hi, rfl⟩, hshr⟩ := h _ hw reg shr rfl
    rcases hfile with rfl | rfl <;>
      simp [RawWindow.toWindow, Window.toRaw, Nat.mod_eq_of_lt hi, Nat.mod_eq_of_lt (Nat.lt_succ_of_le hshr)]

/-- The layouts of the checked data, read back, are the author's. -/
theorem map_toRaw_layouts {file : Nat → BankReg} (hfile : file = .prg ∨ file = .chr) {n k : Nat}
    {layouts : List (List RawWindow)} (hk : layouts.length = k)
    (h : ∀ layout ∈ layouts, namesRegisters file (n + 1) layout) :
    (Vector.ofFn fun i : Fin k => (layouts.getD i []).map (RawWindow.toWindow n)).toList.map
      (fun layout => layout.map (Window.toRaw file)) = layouts := by
  rw [toList_ofFn_getD hk, List.map_map]
  exact (List.map_congr_left fun layout hl => map_toRaw_toWindow hfile (h layout hl)).trans (List.map_id layouts)

/-- Settles O19: the checker accepts the profile (`RawProfile.failedCheck_eq_none_iff_meetsR105`), and within the ranges
that W1 to W7 give, no field of its data differs from what the author wrote. -/
theorem wellFormedProfilesAreAcceptedAsWritten : Obligations.WellFormedProfilesAreAcceptedAsWritten := by
  unfold Obligations.WellFormedProfilesAreAcceptedAsWritten
  intro r hr hprg hchr
  have hchecked : r.failedCheck = none := r.failedCheck_eq_none_iff_meetsR105.mpr ⟨hr, hprg, hchr⟩
  obtain ⟨hprgNames, hchrNames⟩ := hr.w3
  refine ⟨r.toData, RegistryEntry.profile_of_checked hchecked, map_toRaw_layouts (.inl rfl) hr.w1.1 hprgNames,
    map_toRaw_layouts (.inr rfl) hr.w2.1 hchrNames, rfl, ?mirrorDecode, rfl, ?serialTarget, rfl, ?fixedBankMode, rfl, rfl,
    ?edgeBit, rfl, rfl, rfl⟩
  case mirrorDecode => exact (toList_ofFn_getD hr.w7 id _).trans (List.map_id _)
  case serialTarget =>
    intro hserial a ha
    obtain ⟨t, ht⟩ := hr.w6 hserial a ha
    rw [ht]
    exact congrArg some (RawTargetMap.lookup_toMap ht).symm
  case fixedBankMode => exact Nat.mod_eq_of_lt (Nat.lt_succ_of_le hr.w5)
  case edgeBit => exact Nat.mod_eq_of_lt (Nat.lt_succ_of_le hr.w4)

/-! ## Every profile of the registry is tiled -/

/-- The checked data of a profile that passes W1 and W2 is tiled. -/
theorem RawProfile.toData_tiled {r : RawProfile} (h1 : r.w1 = true) (h2 : r.w2 = true) : r.toData.tiled = true := by
  obtain ⟨hprg, hprgs⟩ := r.w1_iff.mp h1
  obtain ⟨hchr, hchrs⟩ := r.w2_iff.mp h2
  have hspan (n : Nat) : Window.span ∘ RawWindow.toWindow n = RawWindow.span := rfl
  simp only [ProfileData.tiled, toData, toList_ofFn_getD hprg, toList_ofFn_getD hchr, List.all_map, Bool.and_eq_true,
    List.all_eq_true, Function.comp_apply, List.map_map, hspan]
  exact ⟨hprgs, hchrs⟩

/-- A registry entry that the checks of R105 let through has a tiled profile. -/
theorem RegistryEntry.tiled_of_profile {entry : RegistryEntry} {p : Profile} (h : entry.profile = .ok p) :
    p.data.tiled = true := by
  cases entry with
  | S => cases h; exact tiled_S
  | E => cases h; exact tiled_E
  | C => cases h; exact tiled_C
  | variant r =>
    cases hc : r.failedCheck with
    | some check => rw [profile_of_failedCheck hc] at h; cases h
    | none =>
      rw [profile_of_checked hc] at h
      cases h
      obtain ⟨h1, h2, -⟩ := r.failedCheck_eq_none_iff.mp hc
      exact RawProfile.toData_tiled h1 h2

end Sys2Proof

/-! ## What construction ends in -/

namespace Sys2Proof.Machine

/-- The CHR storage of a declaration that is not empty: whether it is RAM, its size and its contents (R103). -/
inductive ChrStored (env : Environment) (drawn : List Host.Cell) : ChrDeclared → Bool → Nat → Memory → Prop
  | rom (bytes : Image) (h : bytes.size ≠ 0) :
    ChrStored env drawn (.rom bytes) false bytes.size (Memory.ofCells bytes.size bytes.cells)
  | ram (n : Nat) (h : n ≠ 0) : ChrStored env drawn (.ram n) true n (Memory.ofCells n drawn)
  | created (h : env.chrRamDefaultSize ≠ 0) :
    ChrStored env drawn .none true env.chrRamDefaultSize (Memory.ofCells env.chrRamDefaultSize drawn)

theorem chrRam_of_ne_zero {n : Nat} (h : n ≠ 0) (d : Draws) :
    chrRam n d = .ok (true, n, Memory.ofCells n d.initChrRam) := if_neg h

theorem chrRam_eq_ok {n : Nat} {d : Draws} {x : Bool × Nat × Memory} (h : chrRam n d = .ok x) :
    n ≠ 0 ∧ x = (true, n, Memory.ofCells n d.initChrRam) := by
  unfold chrRam at h
  split at h
  · cases h
  · next hn => exact ⟨hn, (Except.ok.inj h).symm⟩

theorem chrStorage_of_stored {env : Environment} {c : Cartridge} {d : Draws} {chrIsRam : Bool} {n : Nat} {m : Memory}
    (h : ChrStored env d.initChrRam c.chr chrIsRam n m) : chrStorage env c d = .ok (chrIsRam, n, m) := by
  unfold chrStorage
  generalize c.chr = decl at h
  cases h with
  | rom bytes h => exact if_neg h
  | ram n h => exact chrRam_of_ne_zero h d
  | created h => exact chrRam_of_ne_zero h d

theorem stored_of_chrStorage {env : Environment} {c : Cartridge} {d : Draws} {chrIsRam : Bool} {n : Nat} {m : Memory}
    (h : chrStorage env c d = .ok (chrIsRam, n, m)) : ChrStored env d.initChrRam c.chr chrIsRam n m := by
  unfold chrStorage at h
  generalize c.chr = decl at h ⊢
  cases decl with
  | rom bytes =>
    dsimp only at h
    split at h
    · cases h
    · next hsize => cases h; exact .rom bytes hsize
  | ram k => obtain ⟨hk, hx⟩ := chrRam_eq_ok h; cases hx; exact .ram _ hk
  | none => obtain ⟨hk, hx⟩ := chrRam_eq_ok h; cases hx; exact .created hk

/-- An empty declaration is `InvalidSize` (R103). -/
theorem chrStorage_of_isEmpty {c : Cartridge} (h : chrIsEmpty c.chr) (env : Environment) (d : Draws) :
    chrStorage env c d = .error (.invalidSize .chr) := by
  unfold chrStorage
  generalize c.chr = decl at h ⊢
  cases decl with
  | rom bytes => exact if_pos h
  | ram n => exact if_pos h
  | none => exact h.elim

/-- A declaration that is not empty is stored. -/
theorem exists_chrStored {env : Environment} {decl : ChrDeclared} (h : ¬ chrIsEmpty decl)
    (hdefault : decl = .none → env.chrRamDefaultSize ≠ 0) (drawn : List Host.Cell) :
    ∃ chrIsRam n m, ChrStored env drawn decl chrIsRam n m := by
  cases decl with
  | rom bytes => exact ⟨_, _, _, .rom bytes h⟩
  | ram n => exact ⟨_, _, _, .ram n h⟩
  | none => exact ⟨_, _, _, .created (hdefault rfl)⟩

/-- CHR storage is not empty, and its contents are canonical and inside it. -/
theorem ChrStored.store {env : Environment} {drawn : List Host.Cell} {decl : ChrDeclared} {chrIsRam : Bool} {n : Nat}
    {m : Memory} (h : ChrStored env drawn decl chrIsRam n m) : 0 < n ∧ m.wf ∧ m.within n := by
  cases h with
  | rom bytes h => exact ⟨Nat.pos_of_ne_zero h, Memory.ofCells_wf_within _ _⟩
  | ram n h => exact ⟨Nat.pos_of_ne_zero h, Memory.ofCells_wf_within _ _⟩
  | created h => exact ⟨Nat.pos_of_ne_zero h, Memory.ofCells_wf_within _ _⟩

/-- Another draw gives the same storage with the drawn contents, where it is RAM (R103, R106). -/
theorem ChrStored.redraw {env : Environment} {drawn : List Host.Cell} {decl : ChrDeclared} {chrIsRam : Bool} {n : Nat}
    {m : Memory} (h : ChrStored env drawn decl chrIsRam n m) (drawn' : List Host.Cell) :
    ∃ m', ChrStored env drawn' decl chrIsRam n m' ∧ (chrIsRam = true → m' = Memory.ofCells n drawn') := by
  cases h with
  | rom bytes h => exact ⟨_, .rom bytes h, nofun⟩
  | ram n h => exact ⟨_, .ram n h, fun _ => rfl⟩
  | created h => exact ⟨_, .created h, fun _ => rfl⟩

/-- The configuration of the instance, as the loader, the registry and the environment give it (R6). -/
def instanceConfig (env : Environment) (p : Profile) (c : Cartridge) (chrIsRam : Bool) (chrSize : Nat) : Config where
  mapperNumber := c.mapperNumber
  profile := p
  prgRom := Memory.ofCells c.prgRom.size c.prgRom.cells
  prgSize := c.prgRom.size
  chrIsRam := chrIsRam
  chrSize := chrSize
  ramSize := c.ramSize
  hasBattery := c.hasBattery
  headerMirror := c.headerMirror
  cpuWindowLo := env.cpuWindowLo
  chrRamDefaultSize := env.chrRamDefaultSize

/-- Past the size checks the allocation draw decides (R104). -/
theorem constructWith_of_stored {env : Environment} {c : Cartridge} {d : Draws} {chrIsRam : Bool} {n : Nat} {m : Memory}
    (hprg : c.prgRom.size ≠ 0) (hchr : ChrStored env d.initChrRam c.chr chrIsRam n m) (p : Profile) :
    constructWith env p c d =
      if d.allocationFails then .loadError .allocationFailure
      else .inserted (initialState (instanceConfig env p c chrIsRam n) m (Memory.ofCells c.ramSize d.initPrgRam)) := by
  simp only [constructWith, chrStorage_of_stored hchr, if_neg hprg]
  rfl

/-- The instances that construction gives. -/
inductive Constructs (registry : Nat → Option RegistryEntry) (env : Environment) (c : Cartridge) (d : Draws) :
    State → Prop
  | intro {entry : RegistryEntry} {p : Profile} {chrIsRam : Bool} {n : Nat} {m : Memory}
    (entry_eq : registry c.mapperNumber = some entry) (profile_eq : entry.profile = .ok p)
    (prg_ne : c.prgRom.size ≠ 0) (chr : ChrStored env d.initChrRam c.chr chrIsRam n m)
    (allocates : d.allocationFails = false) :
    Constructs registry env c d
      (initialState (instanceConfig env p c chrIsRam n) m (Memory.ofCells c.ramSize d.initPrgRam))

/-- Construction gives an instance exactly where every check passes, and the instance is the initial state of the
configuration it was given (R100 to R107). -/
theorem construct_eq_inserted_iff {registry : Nat → Option RegistryEntry} {env : Environment} {c : Cartridge} {d : Draws}
    {s : State} : construct registry env c d = .inserted s ↔ Constructs registry env c d s := by
  constructor
  · intro h
    unfold construct constructWith at h
    split at h
    · cases h
    · next entry hentry =>
      split at h
      · cases h
      · next p hp =>
        split at h
        · cases h
        · next hprg =>
          split at h
          · cases h
          · next chrIsRam n m hchr =>
            split at h
            · cases h
            · next halloc =>
              cases h
              exact .intro hentry hp hprg (stored_of_chrStorage hchr) (Bool.eq_false_iff.mpr halloc)
  · rintro ⟨hentry, hp, hprg, hchr, halloc⟩
    rw [construct_of_profile hentry hp, constructWith_of_stored hprg hchr, halloc]
    rfl

/-! ## The instance right after construction -/

/-- The initial state of a well-formed configuration with stores of its sizes has the invariant (R106). -/
theorem initialState_instanceInv {cfg : Config} {chrMem prgRam : Memory} (hcfg : ConfigWf cfg)
    (hchr : chrMem.wf ∧ chrMem.within cfg.chrSize) (hram : prgRam.wf ∧ prgRam.within cfg.ramSize) :
    InstanceInv (initialState cfg chrMem prgRam) where
  cfg_wf := hcfg
  count_le := Nat.zero_le 4
  pending_enabled := nofun
  quiet _ := ⟨rfl, rfl, rfl, rfl, rfl, rfl⟩
  chrMem_wf := hchr.1
  chrMem_within := hchr.2
  prgRam_wf := hram.1
  prgRam_within := hram.2

/-- `reset()` writes what the initial state holds (R303). -/
theorem execReset_initialState (cfg : Config) (chrMem prgRam : Memory) :
    exec .reset (initialState cfg chrMem prgRam) = .next (initialState cfg chrMem prgRam) := rfl

/-- The configuration of an instance is well-formed where its profile passed R105 and its stores are not empty. -/
theorem instanceConfig_wf {p : Profile} {c : Cartridge} {n : Nat} (hp : p.data.tiled = true) (hprg : c.prgRom.size ≠ 0)
    (hchr : 0 < n) (env : Environment) (chrIsRam : Bool) : ConfigWf (instanceConfig env p c chrIsRam n) where
  prgSize_pos := Nat.pos_of_ne_zero hprg
  chrSize_pos := hchr
  tiled := hp
  prgRom_wf := (Memory.ofCells_wf_within _ _).1
  prgRom_within := (Memory.ofCells_wf_within _ _).2

/-- Settles O14: the instance is the initial state of a well-formed configuration. -/
theorem constructedInstanceIsAtReset : Obligations.ConstructedInstanceIsAtReset := by
  unfold Obligations.ConstructedInstanceIsAtReset
  intro registry env c d s h
  obtain ⟨-, hp, hprg, hchr, -⟩ := construct_eq_inserted_iff.mp h
  obtain ⟨hsize, hcontents⟩ := hchr.store
  have hcfg := instanceConfig_wf (RegistryEntry.tiled_of_profile hp) hprg hsize
  exact ⟨initialState_instanceInv (hcfg _ _) hcontents (Memory.ofCells_wf_within _ _), rfl, rfl,
    execReset_initialState _ _ _⟩

/-- The configuration of the reset state (log entry 2) is well-formed. -/
theorem resetConfig_wf : ConfigWf resetConfig where
  prgSize_pos := by decide
  chrSize_pos := by decide
  tiled := tiled_C
  prgRom_wf := Memory.nil_wf
  prgRom_within := nofun

/-- The reset state is the initial state of its configuration with blank RAM. -/
theorem reset_eq_initialState : State.reset = initialState resetConfig [] [] := rfl

/-- Settles O9: the reset state is the initial state of a well-formed configuration. -/
theorem resetStateHasTheInvariant : Obligations.ResetStateHasTheInvariant := by
  unfold Obligations.ResetStateHasTheInvariant
  rw [reset_eq_initialState]
  exact initialState_instanceInv resetConfig_wf ⟨Memory.nil_wf, nofun⟩ ⟨Memory.nil_wf, nofun⟩

/-! ## How construction ends -/

/-- Settles O15: the checks one by one, and past them the instance of `Constructs`. -/
theorem constructionEndsAsItsChecksSay : Obligations.ConstructionEndsAsItsChecksSay := by
  unfold Obligations.ConstructionEndsAsItsChecksSay
  refine ⟨rfl, fun registry env c d => ⟨fun hnone => by simp only [construct, hnone], ?_⟩⟩
  intro entry p hentry hp
  refine ⟨fun hprg => ?prgEmpty, fun hprg hempty => ?chrEmpty, fun hprg hchr hdefault => ?checked⟩
  case prgEmpty =>
    rw [construct_of_profile hentry hp]
    exact if_pos hprg
  case chrEmpty =>
    rw [construct_of_profile hentry hp]
    exact constructWith_of_chrStorage_error hprg (chrStorage_of_isEmpty hempty env d) p
  case checked =>
    obtain ⟨chrIsRam, n, m, hstored⟩ := exists_chrStored hchr hdefault d.initChrRam
    constructor
    · intro hfails
      rw [construct_of_profile hentry hp, constructWith_of_stored hprg hstored]
      exact if_pos hfails
    · intro halloc
      refine ⟨_, construct_eq_inserted_iff.mpr (.intro hentry hp hprg hstored halloc), rfl, ?rom, ?ram, ?created, rfl⟩
      -- each declaration is stored in one way
      all_goals
        generalize c.chr = decl at hstored
        intros
        subst decl
        cases hstored
        exact ⟨rfl, rfl, rfl⟩

/-- Settles O17: a canonical store is what its own cells make (`Memory.ofCells_self`). -/
theorem anyRamContentsCanBeDrawn : Obligations.AnyRamContentsCanBeDrawn := by
  unfold Obligations.AnyRamContentsCanBeDrawn
  intro registry env c d s prgRam chrRam h hprgWf hprgWithin hchrWf hchrWithin
  obtain ⟨hentry, hp, hprg, hchr, halloc⟩ := construct_eq_inserted_iff.mp h
  obtain ⟨m, hstored, hdrawn⟩ := hchr.redraw chrRam
  exact ⟨_, construct_eq_inserted_iff.mpr (.intro hentry hp hprg hstored halloc), rfl,
    Memory.ofCells_self hprgWf hprgWithin, fun hram => (hdrawn hram).trans (Memory.ofCells_self hchrWf hchrWithin)⟩

end Sys2Proof.Machine

/-! ## The bus reads and the CHR write -/

namespace Sys2Proof.Machine

/-- The decode diagnostic, by when it is emitted (R130, R282). -/
theorem mismatchDiag_eq (s : State) (store : Store) (wraps : Bool) :
    mismatchDiag s store wraps =
      if wraps = true ∧ s.diagSizeMismatch = false then some (.sizeMismatch store) else none := by
  simp [mismatchDiag]

/-! ### `cpu_read` -/

/-- Below `CPU_WINDOW_LO` a `cpu_read` is out of range (R108, R112). -/
theorem execCpuRead_of_outOfRange {s : State} {a : Addr} (ha : a.toNat < s.cfg.cpuWindowLo.toNat) :
    execCpuRead a s = .next (s.setOutput (.byte openBus) (some (.invalidAddress a))) := by
  rcases cpuRegion_cases s a with ⟨-, e⟩ | ⟨h, -⟩ | ⟨h, -⟩ | ⟨h, -⟩
  · rw [execCpuRead, e]; rfl
  all_goals omega

/-- In 0x6000..0x7FFF a `cpu_read` goes through the guard (R108, R222). -/
theorem execCpuRead_of_prgRam {s : State} {a : Addr} (hlo : s.cfg.cpuWindowLo.toNat ≤ a.toNat) (h1 : 0x6000 ≤ a.toNat)
    (h2 : a.toNat ≤ 0x7FFF) : execCpuRead a s = .next (s.setOutput (.byte (ramRead s a)) none) := by
  rcases cpuRegion_cases s a with ⟨h, -⟩ | ⟨-, h, -⟩ | ⟨-, -, -, e⟩ | ⟨-, h, -⟩
  case inr.inr.inl => rw [execCpuRead, e]; rfl
  all_goals omega

/-- From 0x8000 a `cpu_read` goes through the PRG decode (R108, R127). -/
theorem execCpuRead_of_prgRom {s : State} {a : Addr} (hlo : s.cfg.cpuWindowLo.toNat ≤ a.toNat) (h : 0x8000 ≤ a.toNat) :
    execCpuRead a s = readPrgRom a s := by
  rcases cpuRegion_cases s a with ⟨h, -⟩ | ⟨-, h, -⟩ | ⟨-, -, h, -⟩ | ⟨-, -, e⟩
  case inr.inr.inr => rw [execCpuRead, e]
  all_goals omega

/-- The guard's answer to a CPU read (R221, R222). -/
theorem ramRead_eq (s : State) (a : Addr) :
    ramRead s a = if s.cfg.ramSize = 0 ∨ s.ramEnable = false then 0xFF
      else s.prgRam.read ((a.toNat - 0x6000) % s.cfg.ramSize) := by
  have hguard : ramReadable s = true ↔ ¬ (s.cfg.ramSize = 0 ∨ s.ramEnable = false) := by simp [ramReadable]
  by_cases h : s.cfg.ramSize = 0 ∨ s.ramEnable = false
  · rw [ramRead, if_neg (mt hguard.mp (not_not.mpr h)), if_pos h]; rfl
  · rw [ramRead, if_pos (hguard.mpr h), if_neg h]; rfl

/-- Settles O26: the region of the address decides; from 0x8000 the window that a tiled layout has answers. -/
theorem cpuReadAnswersByRegion : Obligations.CpuReadAnswersByRegion := by
  unfold Obligations.CpuReadAnswersByRegion
  intro s a
  refine ⟨by simp [encode, mkWord_toNat], execCpuRead_of_outOfRange, fun hlo h1 h2 => ?prgRam,
    fun hlo ha hcfg => ?prgRom⟩
  case prgRam =>
    rw [← ramRead_eq s a]
    exact execCpuRead_of_prgRam hlo h1 h2
  case prgRom =>
    obtain ⟨w, hw⟩ := prgWindow_isSome hcfg.tiled ha
    obtain ⟨hmem, hbase, hend⟩ := findWindow_some hw
    refine ⟨w, hmem, hbase, hend, _, w.wraps_iff s.prgBank s.cfg.prgSize a.toNat, ?_⟩
    rw [← mismatchDiag_eq]
    exact (execCpuRead_of_prgRom hlo ha).trans (readPrgRom_eq hw)

/-! ### The edge hook -/

/-- The engine of a rising edge (R173): the counter is reloaded, or decremented and the interrupt raised where it reaches
0 while enabled. -/
theorem edgeClock_eq (s : State) : edgeClock s = { s with
    irqCounter := counterAfterEdge s true
    irqPending := pendingAfterEdge s true
    irqReload := false } := by
  have hdecrement : s.irqCounter - 1#8 = 0#8 ↔ s.irqCounter = 1#8 := by bv_omega
  unfold edgeClock
  split
  · next hreload => simp [State.setIrqCounter, State.setIrqReload, counterAfterEdge, pendingAfterEdge, hreload]
  · next hreload =>
    rw [Bool.not_eq_true] at hreload
    split
    · next hzero => simp [State.setIrqCounter, counterAfterEdge, pendingAfterEdge, hreload, hzero]
    · next hzero =>
      have hcounter : counterAfterEdge s true = s.irqCounter - 1 := by
        rw [counterAfterEdge, if_neg (by decide), if_neg (by rw [hreload]; simpa using hzero)]
      have hpending : pendingAfterEdge s true = (s.irqPending || (s.irqCounter == 1 && s.irqEnable)) := by
        rw [pendingAfterEdge, hreload, Bool.true_and, Bool.not_false, Bool.true_and]
      have hraises : ((s.setIrqCounter (s.irqCounter - 1)).irqCounter = 0 ∧
          (s.setIrqCounter (s.irqCounter - 1)).irqEnable = true) ↔ (s.irqCounter == 1 && s.irqEnable) = true := by
        simp [hdecrement]
      rw [hcounter, hpending, ← hreload]
      simp only [hraises]
      cases s.irqCounter == 1 && s.irqEnable <;> simp [State.setIrqCounter, State.setIrqPending, raiseIrq]

/-- What the hook does to the engine, and the level it records (R172 to R174). -/
theorem edgeHook_eq (s : State) (a : Addr) : edgeHook s a = { s with
    irqCounter := counterAfterEdge s (isRisingEdge s a)
    irqPending := pendingAfterEdge s (isRisingEdge s a)
    irqReload := s.irqReload && !isRisingEdge s a
    edgePrev := a.getLsbD s.cfg.profile.data.edgeBit } := by
  have hrises : edgeRises s a = isRisingEdge s a := rfl
  rw [edgeHook, hrises]
  cases isRisingEdge s a with
  | false => simp [State.setEdgePrev, edgeLevel, counterAfterEdge, pendingAfterEdge]
  | true => simp [State.setEdgePrev, edgeLevel, edgeClock_eq]

/-! ### `ppu_read` and `ppu_write` -/

theorem ppuInRange_iff (a : Addr) : ppuInRange a = true ↔ a.toNat ≤ 0x1FFF := by simp [ppuInRange]

/-- Above 0x1FFF a `ppu_read` answers without the hook (R110, R174). -/
theorem execPpuRead_of_outOfRange {a : Addr} (h : 0x1FFF < a.toNat) (s : State) :
    execPpuRead a s = .next (s.setOutput (.byte openBus) (some (.invalidAddress a))) :=
  if_neg ((ppuInRange_iff a).not.mpr (Nat.not_le.mpr h))

theorem execPpuRead_of_inRange {a : Addr} (h : a.toNat ≤ 0x1FFF) (s : State) :
    execPpuRead a s = readChr a (edgeHook s a) := if_pos ((ppuInRange_iff a).mpr h)

/-- Above 0x1FFF a `ppu_write` answers without the hook (R111, R174). -/
theorem execPpuWrite_of_outOfRange {a : Addr} (h : 0x1FFF < a.toNat) (v : Byte) (s : State) :
    execPpuWrite a v s = .next (s.setOutput .none (some (.invalidAddress a))) :=
  if_neg ((ppuInRange_iff a).not.mpr (Nat.not_le.mpr h))

theorem execPpuWrite_of_inRange {a : Addr} (h : a.toNat ≤ 0x1FFF) (v : Byte) (s : State) :
    execPpuWrite a v s = writeChr a v (edgeHook s a) := if_pos ((ppuInRange_iff a).mpr h)

/-- An in-range `ppu_read` answers from the state after the hook, through the window of the state before it: the hook
changes no bank (R110, R128). -/
theorem execPpuRead_of_window {s : State} {a : Addr} {w : Window 8} (ha : a.toNat ≤ 0x1FFF)
    (hw : chrWindow s a = some w) : execPpuRead a s = .next { edgeHook s a with
      diagSizeMismatch := s.diagSizeMismatch || w.wraps s.chrBank s.cfg.chrSize a.toNat
      response := .byte (s.chrMem.read (w.offset s.chrBank s.cfg.chrSize a.toNat))
      diag := mismatchDiag s .chr (w.wraps s.chrBank s.cfg.chrSize a.toNat) } := by
  rw [execPpuRead_of_inRange ha, readChr_eq ((chrWindow_edgeHook s a a).trans hw), edgeHook_eq]
  rfl

/-- CHR storage after an in-range `ppu_write` through window `w`: CHR-ROM is not written (R111, R133). -/
def chrMemAfterWrite (s : State) (w : Window 8) (a : Addr) (v : Byte) : Memory :=
  if s.cfg.chrIsRam then s.chrMem.write (w.offset s.chrBank s.cfg.chrSize a.toNat) v else s.chrMem

/-- An in-range `ppu_write`, likewise (R111, R128). -/
theorem execPpuWrite_of_window {s : State} {a : Addr} {w : Window 8} (ha : a.toNat ≤ 0x1FFF)
    (hw : chrWindow s a = some w) (v : Byte) : execPpuWrite a v s = .next { edgeHook s a with
      diagSizeMismatch := s.diagSizeMismatch || w.wraps s.chrBank s.cfg.chrSize a.toNat
      chrMem := chrMemAfterWrite s w a v
      response := .none
      diag := mismatchDiag s .chr (w.wraps s.chrBank s.cfg.chrSize a.toNat) } := by
  rw [execPpuWrite_of_inRange ha, writeChr_eq ((chrWindow_edgeHook s a a).trans hw), edgeHook_eq]
  rfl

/-- With CHR-RAM the written byte is at the decoded offset, and every other byte is as before. -/
theorem chrMemAfterWrite_of_ram {s : State} (hram : s.cfg.chrIsRam = true) (hwf : s.chrMem.wf) (w : Window 8) (a : Addr)
    (v : Byte) : (chrMemAfterWrite s w a v).wf ∧
      (chrMemAfterWrite s w a v).read (w.offset s.chrBank s.cfg.chrSize a.toNat) = v ∧
      ∀ o, o ≠ w.offset s.chrBank s.cfg.chrSize a.toNat → (chrMemAfterWrite s w a v).read o = s.chrMem.read o := by
  rw [chrMemAfterWrite, if_pos hram]
  exact ⟨Memory.write_wf hwf _ v, Memory.read_write_same hwf _ v, fun o ho => Memory.read_write_other _ v ho⟩

theorem chrMemAfterWrite_of_rom {s : State} (hrom : s.cfg.chrIsRam = false) (w : Window 8) (a : Addr) (v : Byte) :
    chrMemAfterWrite s w a v = s.chrMem := if_neg (Bool.eq_false_iff.mp hrom)

/-- Settles O30: the hook's effect is `edgeHook_eq`, and the window is the one that a tiled layout has. -/
theorem ppuReadClocksTheEngineAndReads : Obligations.PpuReadClocksTheEngineAndReads := by
  unfold Obligations.PpuReadClocksTheEngineAndReads
  intro s a
  refine ⟨by simp [encode, mkWord_toNat], fun h => execPpuRead_of_outOfRange h s, fun ha hcfg => ?_⟩
  obtain ⟨w, hw⟩ := chrWindow_isSome hcfg.tiled ha
  obtain ⟨hmem, hbase, hend⟩ := findWindow_some hw
  refine ⟨w, hmem, hbase, hend, _, w.wraps_iff s.chrBank s.cfg.chrSize a.toNat, ?_⟩
  rw [← mismatchDiag_eq, exec, execPpuRead_of_window ha hw, edgeHook_eq]

/-- Settles O31: the hook's effect is `edgeHook_eq`, the store's `chrMemAfterWrite_of_ram` and
`chrMemAfterWrite_of_rom`. -/
theorem ppuWriteStoresOnlyToChrRam : Obligations.PpuWriteStoresOnlyToChrRam := by
  unfold Obligations.PpuWriteStoresOnlyToChrRam
  intro s a v
  refine ⟨by simp [encode, mkWord_toNat], fun h => execPpuWrite_of_outOfRange h v s, fun ha hcfg hwf => ?_⟩
  obtain ⟨w, hw⟩ := chrWindow_isSome hcfg.tiled ha
  obtain ⟨hmem, hbase, hend⟩ := findWindow_some hw
  refine ⟨w, hmem, hbase, hend, _, chrMemAfterWrite s w a v, fun _ => w.wraps_iff s.chrBank s.cfg.chrSize a.toNat, ?_,
    fun hrom => chrMemAfterWrite_of_rom hrom w a v, fun hram => chrMemAfterWrite_of_ram hram hwf w a v⟩
  rw [← mismatchDiag_eq, exec, execPpuWrite_of_window ha hw, edgeHook_eq]

end Sys2Proof.Machine

/-! # Proofs of the obligations cited from `41_bank_decoder`

## The range and the formula of an offset -/

namespace Sys2Proof

/-- A store that holds a window has as many banks as whole windows: the `max` of R121 is for smaller stores. -/
theorem bankCount_eq_div {size windowSize : Nat} (hle : windowSize ≤ size) (hpos : 0 < windowSize) :
    bankCount size windowSize = size / windowSize := max_eq_right (Nat.div_pos hle hpos)

/-- Where the window size divides the store and the store holds a window, the banks fill the store exactly, so the final
wrap of R124 takes nothing off (R131). -/
theorem Window.unwrapped_lt {n : Nat} (w : Window n) (regs : Vector Byte n) {size a : Nat} (hdvd : w.size ∣ size)
    (hle : w.size ≤ size) (hpos : 0 < w.size) (hend : a < w.base + w.size) : w.unwrapped regs size a < size := by
  have hbank : w.bank regs size + 1 ≤ size / w.size := bankCount_eq_div hle hpos ▸ w.bank_lt regs size
  calc w.unwrapped regs size a < (w.bank regs size + 1) * w.size := by rw [Window.unwrapped, Nat.succ_mul]; omega
    _ ≤ size / w.size * w.size := Nat.mul_le_mul_right _ hbank
    _ = size := Nat.div_mul_cancel hdvd

/-- Settles O22: neither the `max` of R121 nor the final wrap of R124 takes effect. -/
theorem offsetIsTheSourceFormula : Obligations.OffsetIsTheSourceFormula := by
  unfold Obligations.OffsetIsTheSourceFormula
  intro n w regs size a hdvd hle hpos _ hend
  rw [Window.offset, Nat.mod_eq_of_lt (w.unwrapped_lt regs hdvd hle hpos hend), Window.unwrapped, Window.bank,
    bankCount_eq_div hle hpos]

namespace Machine

theorem prgOffset_of_window {s : State} {a : Addr} {w : Window 4} (hw : prgWindow s a = some w) :
    prgOffset s a = some (w.offset s.prgBank s.cfg.prgSize a.toNat) := by
  rw [prgOffset, hw, Option.map_some]

theorem chrOffset_of_window {s : State} {a : Addr} {w : Window 8} (hw : chrWindow s a = some w) :
    chrOffset s a = some (w.offset s.chrBank s.cfg.chrSize a.toNat) := by
  rw [chrOffset, hw, Option.map_some]

/-- Settles O21: a tiled layout has a window for the address, and the final wrap of R124 is below the store's size. -/
theorem decodedOffsetsLieInTheStore : Obligations.DecodedOffsetsLieInTheStore := by
  unfold Obligations.DecodedOffsetsLieInTheStore
  intro s a hcfg
  constructor
  · intro ha
    obtain ⟨w, hw⟩ := prgWindow_isSome hcfg.tiled ha
    exact ⟨_, prgOffset_of_window hw, w.offset_lt _ _ hcfg.prgSize_pos⟩
  · intro ha
    obtain ⟨w, hw⟩ := chrWindow_isSome hcfg.tiled ha
    exact ⟨_, chrOffset_of_window hw, w.offset_lt _ _ hcfg.chrSize_pos⟩

end Machine
end Sys2Proof

/-! ## The two halves of the pattern-table space -/

namespace Sys2Proof

/-- The address at the same place in the other half of the pattern-table space. -/
def otherHalf (a : Nat) : Nat := if a < 0x1000 then a + 0x1000 else a - 0x1000

/-- Flipping bit 12 of a pattern-table address goes to the other half. -/
theorem toNat_xor_bit12 {a : Addr} (ha : a.toNat ≤ 0x1FFF) : (a ^^^ 0x1000).toNat = otherHalf a.toNat := by
  have hlow : (a.toNat ^^^ 2 ^ 12) % 2 ^ 12 = a.toNat % 2 ^ 12 := by
    rw [Nat.xor_mod_two_pow, Nat.mod_self, Nat.xor_zero]
  have hhigh : (a.toNat ^^^ 2 ^ 12) / 2 ^ 12 = a.toNat / 2 ^ 12 ^^^ 1 := by
    rw [Nat.xor_div_two_pow, Nat.div_self (Nat.two_pow_pos 12)]
  have hxor : (a ^^^ 0x1000).toNat = a.toNat ^^^ 2 ^ 12 := BitVec.toNat_xor a 0x1000
  rw [hxor, otherHalf]
  split
  · next h =>
    have hzero : a.toNat / 2 ^ 12 = 0 := by omega
    rw [hzero, Nat.zero_xor] at hhigh
    omega
  · next h =>
    have hone : a.toNat / 2 ^ 12 = 1 := by omega
    rw [hone, Nat.xor_self] at hhigh
    omega

/-- The window does not straddle the middle of the pattern-table space. -/
abbrev Window.inOneHalf {n : Nat} (w : Window n) : Prop := w.base + w.size ≤ 0x1000 ∨ 0x1000 ≤ w.base

/-- The window moved to the other half; its bank register goes with it. -/
def Window.swapHalf {n : Nat} (w : Window n) : Window n := { w with base := otherHalf w.base }

/-- Where a window that lies in one half answers an address, the moved window answers the moved address, at the same
local offset. -/
theorem Window.swapHalf_answers {n : Nat} {w : Window n} {a : Nat} (hw : w.inOneHalf)
    (ha : w.base ≤ a ∧ a < w.base + w.size) :
    (w.swapHalf.base ≤ otherHalf a ∧ otherHalf a < w.swapHalf.base + w.swapHalf.size) ∧
      otherHalf a - w.swapHalf.base = a - w.base := by
  simp only [Window.swapHalf, otherHalf]
  split <;> split <;> omega

/-- Only the local offset of an address enters its decode (R124). -/
theorem Window.offset_swapHalf {n : Nat} {w : Window n} {a : Nat} (hw : w.inOneHalf)
    (ha : w.base ≤ a ∧ a < w.base + w.size) (regs : Vector Byte n) (size : Nat) :
    w.swapHalf.offset regs size (otherHalf a) = w.offset regs size a := by
  rw [Window.offset, Window.unwrapped, (Window.swapHalf_answers hw ha).2]
  rfl

/-- In a layout with exactly one window for the address, `findWindow` finds every window that answers it. -/
theorem findWindow_eq_some {n : Nat} {layout : List (Window n)} {a : Nat} {w : Window n}
    (hone : ((layout.map Window.span).filter (spanAnswers · a)).length = 1) (hmem : w ∈ layout)
    (ha : w.base ≤ a ∧ a < w.base + w.size) : findWindow layout a = some w := by
  rw [List.filter_map, List.length_map] at hone
  obtain ⟨x, hx⟩ := List.length_eq_one_iff.mp hone
  have hw : w ∈ layout.filter (·.answers a) := List.mem_filter.mpr ⟨hmem, (w.answers_iff a).mpr ha⟩
  have hfilter : layout.filter (·.answers a) = [x] := hx
  rw [hfilter, List.mem_singleton] at hw
  rw [findWindow, ← List.head?_filter, hfilter, hw, List.head?_cons]

/-- The two CHR layouts of Profile E: each window lies in one half, and moved to the other it is in the other layout. -/
theorem chrLayout_E_swapHalf : ∀ w ∈ profileE.chrLayout[0],
    w.inOneHalf ∧ w.swapHalf ∈ profileE.chrLayout[1] := by decide

namespace Machine

/-- Settles O24: the window that answers with `chr_mode` 1 is the one that answers with `chr_mode` 0, moved to the other
half. -/
theorem chrModeSwapsThePatternTableHalves : Obligations.ChrModeSwapsThePatternTableHalves := by
  unfold Obligations.ChrModeSwapsThePatternTableHalves
  intro s a hE ha
  have htiled : s.cfg.profile.data.tiled = true := by rw [hE]; exact tiled_E
  have hswap := toNat_xor_bit12 ha
  have ha' : (a ^^^ 0x1000).toNat ≤ 0x1FFF := by rw [hswap, otherHalf]; split <;> omega
  obtain ⟨w, hw⟩ := chrWindow_isSome (s := { s with chrMode := false }) htiled ha
  obtain ⟨hmem, hanswers⟩ := findWindow_some hw
  obtain ⟨hhalf, hmem'⟩ := chrLayout_E_swapHalf w (by simpa [hE, Profile.data] using hmem)
  have hw' : chrWindow { s with chrMode := true } (a ^^^ 0x1000) = some w.swapHalf := by
    refine findWindow_eq_some (chrTiles_exactly_one (ProfileData.tiled_chr htiled 1) ha') ?_ ?_
    · rw [hE]; exact hmem'
    · rw [hswap]; exact (Window.swapHalf_answers hhalf hanswers).1
  refine ⟨_, chrOffset_of_window hw, (chrOffset_of_window hw').trans ?_⟩
  rw [hswap, Window.offset_swapHalf hhalf hanswers]

end Machine
end Sys2Proof

/-! ## What a `cpu_read` sees of the state -/

namespace Sys2Proof.Machine

/-- The byte a `cpu_read` returns, by region (R108, R222). Where no PRG window answers, which R105 excludes, the read is
refused and this value is not used. -/
def cpuReadByte (s : State) (a : Addr) : Byte :=
  match cpuRegion s a with
  | .outOfRange | .unclaimed => openBus
  | .prgRam => ramRead s a
  | .prgRom => ((prgOffset s a).map s.cfg.prgRom.read).getD openBus

theorem answer_response {s t : State} {r : Response} {d : Option Diag} (h : answer s r d = .next t) :
    t.response = r := by
  cases h
  rfl

theorem execCpuRead_response {s t : State} {a : Addr} (h : execCpuRead a s = .next t) :
    t.response = .byte (cpuReadByte s a) := by
  unfold execCpuRead at h
  unfold cpuReadByte
  cases hregion : cpuRegion s a <;> rw [hregion] at h
  case outOfRange | unclaimed | prgRam => exact answer_response h
  case prgRom =>
    cases hw : prgWindow s a with
    | none => simp [readPrgRom, hw] at h
    | some w =>
      rw [prgOffset_of_window hw]
      simp only [readPrgRom, hw] at h
      exact answer_response h

/-- The byte is a function of the decoder state of R125, PRG-RAM and its enable. -/
theorem cpuReadByte_congr {s s' : State} (hcfg : s'.cfg = s.cfg) (hbank : s'.prgBank = s.prgBank)
    (hmode : s'.prgMode = s.prgMode) (hram : s'.prgRam = s.prgRam) (henable : s'.ramEnable = s.ramEnable) (a : Addr) :
    cpuReadByte s' a = cpuReadByte s a := by
  have hregion : cpuRegion s' a = cpuRegion s a := by rw [cpuRegion, cpuInRange, hcfg]; rfl
  have hguard : ramRead s' a = ramRead s a := by simp only [ramRead_eq, hcfg, henable, hram]
  have hoffset : prgOffset s' a = prgOffset s a := by simp only [prgOffset, prgWindow, hcfg, hmode, hbank]
  rw [cpuReadByte, hregion, hguard, hoffset, hcfg]
  rfl

/-- Settles O25: the response is `cpuReadByte`, which the equal fields determine. -/
theorem cpuReadSeesOnlyTheDecoderState : Obligations.CpuReadSeesOnlyTheDecoderState := by
  unfold Obligations.CpuReadSeesOnlyTheDecoderState
  intro s s' t t' a hcfg hbank hmode hram henable ht ht'
  rw [execCpuRead_response ht, execCpuRead_response ht', cpuReadByte_congr hcfg hbank hmode hram henable]

end Sys2Proof.Machine

/-! ## A CHR-RAM byte written and read back -/

namespace Sys2Proof.Machine

/-- An in-range `ppu_write` writes the CHR store through its window and leaves the CHR decode as it was (R111, R128). -/
theorem execPpuWrite_chr {s t : State} {a : Addr} {v : Byte} {w : Window 8} (ha : a.toNat ≤ 0x1FFF)
    (hw : chrWindow s a = some w) (h : execPpuWrite a v s = .next t) :
    t.cfg = s.cfg ∧ t.chrBank = s.chrBank ∧ t.chrMem = chrMemAfterWrite s w a v ∧
      ∀ a', chrWindow t a' = chrWindow s a' := by
  rw [execPpuWrite_of_window ha hw] at h
  cases h
  exact ⟨(edgeHook_keepsHost s a).cfg, (edgeHook_decoder s a).1, rfl, chrWindow_edgeHook s a⟩

/-- Settles O32: the write keeps the decoder, so the read decodes to the offset written. -/
theorem chrRamRoundTrip : Obligations.ChrRamRoundTrip := by
  unfold Obligations.ChrRamRoundTrip
  intro s t u a a' v hinv hram ha ha' hsame hwrite hread
  obtain ⟨w, hw⟩ := chrWindow_isSome hinv.cfg_wf.tiled ha
  obtain ⟨w', hw'⟩ := chrWindow_isSome hinv.cfg_wf.tiled ha'
  have hoffset : w'.offset s.chrBank s.cfg.chrSize a'.toNat = w.offset s.chrBank s.cfg.chrSize a.toNat := by
    simpa only [chrOffset_of_window hw, chrOffset_of_window hw', Option.some.injEq] using hsame
  obtain ⟨hcfg, hbank, hmem, hwindow⟩ := execPpuWrite_chr ha hw hwrite
  obtain ⟨-, hbyte, -⟩ := chrMemAfterWrite_of_ram hram hinv.chrMem_wf w a v
  rw [exec, execPpuRead_of_window ha' ((hwindow a').trans hw')] at hread
  cases hread
  rw [hcfg, hbank, hmem, hoffset, hbyte]

end Sys2Proof.Machine

/-! # Proofs of the obligations cited from `42_mirroring`

## The mirroring multiplexer -/

namespace Sys2Proof.Machine

theorem exec_getMirror (s : State) :
    exec .getMirror s = .next (s.setOutput (.mirror (mirrorCode (mirrorMode s))) none) := rfl

theorem mirrorMode_of_fourScreen {s : State} (h : s.cfg.headerMirror = .fourScreen) : mirrorMode s = .fourScreen :=
  if_pos h

theorem mirrorMode_of_header {s : State} (hfour : s.cfg.headerMirror ≠ .fourScreen)
    (hsource : s.cfg.profile.data.mirrorSource = .header) : mirrorMode s = s.cfg.headerMirror := by
  rw [mirrorMode, if_neg hfour, hsource]

theorem mirrorMode_of_register {s : State} (hfour : s.cfg.headerMirror ≠ .fourScreen)
    (hsource : s.cfg.profile.data.mirrorSource = .register) :
    mirrorMode s = s.cfg.profile.data.mirrorDecode[s.mirrorField.toFin] := by
  rw [mirrorMode, if_neg hfour, hsource]

/-- Settles O35: the query answers `mirrorMode`, which is the multiplexer's selected input in each case. -/
theorem getMirrorFollowsTheMultiplexer : Obligations.GetMirrorFollowsTheMultiplexer := by
  unfold Obligations.GetMirrorFollowsTheMultiplexer
  intro s
  refine ⟨by decide, mirrorCode (mirrorMode s), exec_getMirror s, fun hfour => ?_, fun hfour hsource => ?_,
    fun hfour hsource => ?_⟩
  · rw [mirrorMode_of_fourScreen hfour, mirrorCode]
  · rw [mirrorMode_of_header hfour hsource]
  · rw [mirrorMode_of_register hfour hsource]

/-! ## A mirroring write and the query after it -/

/-- The low one or two bits of a byte, as `mirror_field` holds them (R24, R251, R259). -/
theorem toNat_mirrorField_of_byteField (v : Byte) {len : Nat} (hlen : len ≤ 2) :
    ((byteField v 0 len).extractLsb' 0 2).toNat = v.toNat % 2 ^ len := by
  have hfits : v.toNat % 2 ^ len < 2 ^ 2 :=
    (Nat.mod_lt _ (Nat.two_pow_pos len)).trans_le (Nat.pow_le_pow_right (by decide) hlen)
  simp only [byteField, BitVec.extractLsb'_toNat, BitVec.toNat_setWidth, Nat.shiftRight_zero]
  rw [Nat.mod_eq_of_lt (hfits.trans (by decide)), Nat.mod_eq_of_lt hfits]

/-- In a profile with a mirroring register, a row that writes only `mirror_field` leaves the header's mode and the
decode table alone, so the next query reports the field written unless the wiring is four-screen (R153, R154). -/
theorem getMirror_after_mirrorWrite {p : Profile} {s t u : State} {a : Addr} {v f : Byte}
    (hsource : p.data.mirrorSource = .register) (hp : s.cfg.profile = p) (hlo : s.cfg.cpuWindowLo.toNat ≤ a.toNat)
    (hwrite : rowWrite p (applyActions [.mirrorField f]) a v s = .next t) (hquery : exec .getMirror t = .next u) :
    t.mirrorField = f.extractLsb' 0 2 ∧
    u.response = .mirror (if s.cfg.headerMirror = .fourScreen then 4
      else mirrorCode p.data.mirrorDecode[(f.extractLsb' 0 2).toFin]) := by
  rw [rowWrite_of_inRange hp hlo] at hwrite
  obtain ⟨hcfg, hfield⟩ : t.cfg = s.cfg ∧ t.mirrorField = f.extractLsb' 0 2 := by
    cases hwrite
    exact ⟨rfl, rfl⟩
  rw [exec_getMirror] at hquery
  cases hquery
  refine ⟨hfield, congrArg Response.mirror ?_⟩
  rw [← hp, ← hcfg] at hsource ⊢
  split
  · next hfour => rw [mirrorMode_of_fourScreen hfour, mirrorCode]
  · next hfour => simp only [mirrorMode_of_register hfour hsource, hfield]

/-- The mirroring table of Profile E, by the field's low bit (R154). -/
theorem mirrorCode_E (f : BitVec 2) :
    mirrorCode (profileE.mirrorDecode[f.toFin]) = if f.toNat % 2 = 1 then 0 else 1 := by
  revert f; decide

/-- The mirroring table of Profile C (R154). -/
theorem mirrorCode_C (f : BitVec 2) :
    mirrorCode (profileC.mirrorDecode[f.toFin]) =
      if f.toNat = 0 then 1 else if f.toNat = 1 then 0 else if f.toNat = 2 then 2 else 3 := by
  revert f; decide

/-- Settles O36: the query after the write reports the field written (`getMirror_after_mirrorWrite`), read in the
profile's table. -/
theorem mirroringWritesTakeEffectAtOnce : Obligations.MirroringWritesTakeEffectAtOnce := by
  unfold Obligations.MirroringWritesTakeEffectAtOnce
  intro s t u a v hlo
  constructor
  · intro hp hwrite hquery
    obtain ⟨hfield, hresponse⟩ := getMirror_after_mirrorWrite rfl hp hlo hwrite hquery
    have hvalue := toNat_mirrorField_of_byteField v (len := 1) (by decide)
    rw [hfield, hresponse, Profile.data, mirrorCode_E, hvalue, pow_one, Nat.mod_mod]
    exact ⟨rfl, rfl⟩
  · intro hp hwrite hquery
    obtain ⟨hfield, hresponse⟩ := getMirror_after_mirrorWrite rfl hp hlo hwrite hquery
    have hvalue := toNat_mirrorField_of_byteField v (len := 2) (by decide)
    rw [hfield, hresponse, Profile.data, mirrorCode_C, hvalue]
    exact ⟨rfl, rfl⟩

end Sys2Proof.Machine

/-! # Proofs of the obligations cited from `43_irq_engine`

## The counter-driven family -/

namespace Sys2Proof.Machine

/-- A tick, by its two fields (R176, R177): the branches of the wrap are those of `counterAfterTick`. -/
theorem tick_eq (s : State) :
    tick s = { s with irqCounter := counterAfterTick s, irqPending := pendingAfterTick s } := by
  have hwrap (modular : Byte) : wrapTick modular s = { s with
      irqCounter := if s.irqEnable = true ∨ s.cfg.profile.data.wrapWhenDisabled = .reload then s.irqLatch else modular
      irqPending := s.irqPending || s.irqEnable } := by
    unfold wrapTick
    cases henable : s.irqEnable <;> cases hpolicy : s.cfg.profile.data.wrapWhenDisabled <;>
      simp [State.setIrqCounter, State.setIrqPending, raiseIrq, henable]
  unfold tick counterAfterTick pendingAfterTick
  cases s.cfg.profile.data.counterDir with
  | up => by_cases h : s.irqCounter = 0xFF#8 <;> simp [tickUp, hwrap, State.setIrqCounter, h]
  | down => by_cases h : s.irqCounter = 0x00#8 <;> simp [tickDown, hwrap, State.setIrqCounter, h]

/-- No tick reads or writes the output of a transaction. -/
theorem ticks_setOutput (n : Nat) (s : State) (r : Response) (d : Option Diag) :
    ticks n (s.setOutput r d) = (ticks n s).setOutput r d := by
  induction n generalizing s with
  | zero => rfl
  | succ n ih =>
    have htick : tick (s.setOutput r d) = (tick s).setOutput r d := by rw [tick_eq, tick_eq]; rfl
    rw [ticks_succ, ticks_succ, htick, ih]

/-- Ticks do not clear the interrupt: "`irq_pending` stays 1 after the first" wrap (R179). -/
theorem ticks_pending {s : State} (h : s.irqPending = true) (n : Nat) : (ticks n s).irqPending = true := by
  induction n generalizing s with
  | zero => exact h
  | succ n ih => exact ih (by rw [tick_eq]; simp [pendingAfterTick, h])

theorem scanlineTicks_iff (s : State) :
    scanlineTicks s = true ↔ s.cfg.profile.data.irqFamily = .counter ∧ s.countMode = false := by
  simp [scanlineTicks]

theorem clockTicks_iff (s : State) :
    clockTicks s = true ↔ s.cfg.profile.data.irqFamily = .counter ∧ s.countMode = true := by
  simp [clockTicks]

theorem exec_scanline (s : State) :
    exec .scanline s = .next ((if scanlineTicks s then tick s else s).setOutput .none none) := rfl

theorem exec_clock (n : Addr) (s : State) :
    exec (.clock n) s = .next ((if clockTicks s then ticks n.toNat s else s).setOutput .none none) := rfl

theorem exec_clock_of_ticks {s : State} (h : clockTicks s = true) (n : Addr) :
    exec (.clock n) s = .next ((ticks n.toNat s).setOutput .none none) := by rw [exec_clock, if_pos h]

/-- Settles O37: in scanline mode the transaction is one tick (`tick_eq`). -/
theorem scanlineIsOneTick : Obligations.ScanlineIsOneTick := by
  unfold Obligations.ScanlineIsOneTick
  intro s
  rw [exec_scanline]
  refine ⟨by decide, fun h => ?_, fun h => ?_⟩
  · rw [if_pos ((scanlineTicks_iff s).mpr h), tick_eq]
    rfl
  · rw [if_neg ((scanlineTicks_iff s).not.mpr h)]
    rfl

/-- `clock(n)` then `clock(m)` in cycle mode: the ticks add up (R179). -/
theorem exec_clock_add {s : State} (h : clockTicks s = true) {n m : Addr} (hfits : n.toNat + m.toNat < 0x10000) :
    exec (.clock m) ((ticks n.toNat s).setOutput .none none) = exec (.clock (n + m)) s := by
  have hmode : clockTicks ((ticks n.toNat s).setOutput .none none) = true := by
    obtain ⟨c, p, hframe⟩ := ticks_frame n.toNat s
    rw [hframe]
    exact h
  rw [exec_clock_of_ticks hmode, exec_clock_of_ticks h, BitVec.toNat_add_of_lt hfits, ticks_add, ticks_setOutput]
  rfl

/-- Settles O38: one tick is `tick_eq`, the frame of `n` ticks `ticks_frame`, the sum `exec_clock_add`. -/
theorem clockIsOneTickPerCycle : Obligations.ClockIsOneTickPerCycle := by
  unfold Obligations.ClockIsOneTickPerCycle
  intro s n m
  refine ⟨by simp [encode, mkWord_toNat], fun h => ?_, fun hfamily hmode => ?_⟩
  · rw [exec_clock, if_neg ((clockTicks_iff s).not.mpr h)]
    rfl
  · have hticks : clockTicks s = true := (clockTicks_iff s).mpr ⟨hfamily, hmode⟩
    obtain ⟨c, p, hframe⟩ := ticks_frame n.toNat s
    refine ⟨exec_clock_of_ticks hticks 0, ?_, _, c, p, exec_clock_of_ticks hticks n, ?_, exec_clock_add hticks⟩
    · have hone : ticks (1 : Addr).toNat s = tick s := rfl
      rw [exec_clock_of_ticks hticks, hone, tick_eq]
      rfl
    · rw [hframe]
      rfl

/-- A tick that counts up, below the wrap (R176). -/
theorem tick_up_below_wrap {s : State} (hdir : s.cfg.profile.data.counterDir = .up) (hcounter : s.irqCounter ≠ 0xFF) :
    tick s = s.setIrqCounter (s.irqCounter + 1) := by
  rw [tick, hdir]
  exact if_neg hcounter

/-- Counting up below the wrap, `n` ticks add `n` to the counter and write nothing else (R176). -/
theorem ticks_up_below_wrap {s : State} {n : Nat} (hdir : s.cfg.profile.data.counterDir = .up)
    (hn : s.irqCounter.toNat + n < 0x100) : ticks n s = s.setIrqCounter (s.irqCounter + BitVec.ofNat 8 n) := by
  induction n with
  | zero => simp [ticks, State.setIrqCounter]
  | succ n ih =>
    have hbelow : s.irqCounter + BitVec.ofNat 8 n ≠ 0xFF := by bv_omega
    have hnext : s.irqCounter + BitVec.ofNat 8 n + 1 = s.irqCounter + BitVec.ofNat 8 (n + 1) := by bv_omega
    rw [ticks_add, ih (by omega), ← hnext]
    exact tick_up_below_wrap hdir hbelow

/-- The tick at the wrap, counting up and enabled, reloads the latch and raises the interrupt (R176). -/
theorem tick_up_at_wrap {s : State} (hdir : s.cfg.profile.data.counterDir = .up) (henable : s.irqEnable = true)
    (hcounter : s.irqCounter = 0xFF) : tick s = { s with irqCounter := s.irqLatch, irqPending := true } := by
  rw [tick_eq]
  simp [counterAfterTick, pendingAfterTick, hdir, henable, hcounter]

/-- Settles O39: from the latch the counter rises by one a tick up to 0xFF, and the tick after that wraps. -/
theorem counterInterruptPeriod : Obligations.CounterInterruptPeriod := by
  unfold Obligations.CounterInterruptPeriod
  intro s n hfamily hdir hmode henable hpending hcounter hle
  refine ⟨_, exec_clock_of_ticks ((clockTicks_iff s).mpr ⟨hfamily, hmode⟩) n, ?_⟩
  by_cases hwrap : n.toNat + s.irqLatch.toNat = 0x100
  · obtain ⟨k, hk⟩ : ∃ k, n.toNat = k + 1 := ⟨n.toNat - 1, by bv_omega⟩
    have htop : s.irqCounter + BitVec.ofNat 8 k = 0xFF := by bv_omega
    have hticks : ticks n.toNat s = { s with irqCounter := s.irqLatch, irqPending := true } := by
      rw [hk, ticks_add, ticks_up_below_wrap hdir (by rw [hcounter]; omega), htop]
      exact tick_up_at_wrap hdir henable rfl
    simp [hticks, hwrap]
  · have hticks := ticks_up_below_wrap (n := n.toNat) hdir (by rw [hcounter]; omega)
    have hsum : (s.irqLatch + BitVec.ofNat 8 n.toNat).toNat = s.irqLatch.toNat + n.toNat := by bv_omega
    simp only [hticks, hwrap, hcounter, hsum, State.setOutput_fields, State.setIrqCounter_fields, hpending,
      Bool.false_eq_true, if_false, and_true]

end Sys2Proof.Machine

/-! ## The explicit read and clear of the level -/

namespace Sys2Proof.Machine

theorem exec_irqState (s : State) : exec .irqState s = .next (s.setOutput (.bit s.irqPending) none) := rfl

theorem exec_irqClear (s : State) : exec .irqClear s = .next ((clearIrq s).setOutput .none none) := rfl

/-- Settles O40: the read answers the level (`exec_irqState`), the clear is `clearIrq` (`exec_irqClear`). -/
theorem irqStatePeeksAndIrqClearClears : Obligations.IrqStatePeeksAndIrqClearClears := by
  unfold Obligations.IrqStatePeeksAndIrqClearClears
  exact fun s => ⟨by decide, by decide, exec_irqState s, exec_irqClear s⟩

end Sys2Proof.Machine

/-! ## The edge-triggered family -/

namespace Sys2Proof.Machine

/-- An expansion performed in two parts (R69). -/
theorem execAll_append {is js : List Instr} {s t : State} (h : execAll is s = .next t) :
    execAll (is ++ js) s = execAll js t := by
  induction is generalizing s with
  | nil =>
    cases h
    rfl
  | cons i is ih =>
    simp only [List.cons_append, execAll] at h ⊢
    cases hexec : exec i s with
    | next u =>
      rw [hexec] at h
      exact ih h
    | fault r => exact nomatch r
    | refused r =>
      rw [hexec] at h
      cases h

/-- The engine after an in-range PPU access that is a rising edge if `rises` (R173): what of it depends on the access,
and what does not. -/
structure AfterAccess (rises : Bool) (s t : State) : Prop where
  cfg : t.cfg = s.cfg
  irqLatch : t.irqLatch = s.irqLatch
  irqEnable : t.irqEnable = s.irqEnable
  irqReload : t.irqReload = (s.irqReload && !rises)
  irqCounter : t.irqCounter = counterAfterEdge s rises
  irqPending : t.irqPending = pendingAfterEdge s rises

/-- An access that is no edge leaves the engine to the next one as it was. -/
theorem AfterAccess.after_no_edge {s u t : State} (hlow : AfterAccess false s u) (hhigh : AfterAccess true u t) :
    AfterAccess true s t := by
  have hreload : u.irqReload = s.irqReload := by simpa using hlow.irqReload
  have hcounter : u.irqCounter = s.irqCounter := hlow.irqCounter
  have hpending : u.irqPending = s.irqPending := by simpa [pendingAfterEdge] using hlow.irqPending
  exact
    { cfg := hhigh.cfg.trans hlow.cfg
      irqLatch := hhigh.irqLatch.trans hlow.irqLatch
      irqEnable := hhigh.irqEnable.trans hlow.irqEnable
      irqReload := by rw [hhigh.irqReload, hreload]
      irqCounter := by
        rw [hhigh.irqCounter, counterAfterEdge, counterAfterEdge, hreload, hcounter, hlow.irqLatch]
      irqPending := by
        rw [hhigh.irqPending, pendingAfterEdge, pendingAfterEdge, hreload, hcounter, hpending, hlow.irqEnable] }

/-- An in-range `ppu_read` completes, and is one access to the engine (R110, R172). -/
theorem exec_ppuRead_afterAccess {s : State} {a : Addr} (hcfg : ConfigWf s.cfg) (ha : a.toNat ≤ 0x1FFF) :
    ∃ t, exec (.ppuRead a) s = .next t ∧ AfterAccess (isRisingEdge s a) s t ∧
      t.edgePrev = a.getLsbD s.cfg.profile.data.edgeBit := by
  obtain ⟨w, hw⟩ := chrWindow_isSome hcfg.tiled ha
  refine ⟨_, execPpuRead_of_window ha hw, ?_, ?_⟩ <;> rw [edgeHook_eq]
  exact ⟨rfl, rfl, rfl, rfl, rfl, rfl⟩

/-- `a12_edge` is one rising edge where bit 12 is watched: the low access is none, the high one is one (R93, R172). -/
theorem execAll_a12Edge {s : State} (hcfg : ConfigWf s.cfg) (hfamily : s.cfg.profile.data.irqFamily = .edge)
    (hbit : s.cfg.profile.data.edgeBit = 12) :
    ∃ t, execAll a12EdgeTransactions s = .next t ∧ AfterAccess true s t := by
  obtain ⟨u, hexec, hlow, hprev⟩ := exec_ppuRead_afterAccess hcfg (a := 0x0000) (by decide)
  have hnone : isRisingEdge s 0x0000 = false := by simp [isRisingEdge]
  rw [hnone] at hlow
  obtain ⟨t, hexec', hhigh, -⟩ := exec_ppuRead_afterAccess (s := u) (hlow.cfg ▸ hcfg) (a := 0x1000) (by decide)
  have hrises : isRisingEdge u 0x1000 = true := by
    rw [isRisingEdge, hprev, hlow.cfg, hfamily, hbit]
    decide
  rw [hrises] at hhigh
  exact ⟨t, by simp only [a12EdgeTransactions, execAll, hexec, hexec'], hlow.after_no_edge hhigh⟩

/-- The engine `k` edges after the one that loaded the latch of `s`, the interrupt enabled: one count less with each
edge, and the latch again with the edge that finds 0 (R190). -/
structure CountedDown (s : State) (k : Nat) (t : State) : Prop where
  cfg : t.cfg = s.cfg
  irqLatch : t.irqLatch = s.irqLatch
  irqEnable : t.irqEnable = true
  irqReload : t.irqReload = false
  irqCounter : t.irqCounter.toNat = if k = s.irqLatch.toNat + 1 then s.irqLatch.toNat else s.irqLatch.toNat - k
  irqPending : t.irqPending = true ↔ s.irqLatch.toNat ≤ k

/-- The edge that serves the requested reload loads the latch and asserts nothing (R173). -/
theorem CountedDown.first {s t : State} (hlatch : 1 ≤ s.irqLatch.toNat) (hreload : s.irqReload = true)
    (henable : s.irqEnable = true) (hpending : s.irqPending = false) (h : AfterAccess true s t) :
    CountedDown s 0 t where
  cfg := h.cfg
  irqLatch := h.irqLatch
  irqEnable := h.irqEnable.trans henable
  irqReload := by simp [h.irqReload]
  irqCounter := by simp [h.irqCounter, counterAfterEdge, hreload]
  irqPending := by
    rw [h.irqPending]
    simp [pendingAfterEdge, hreload, hpending]
    omega

/-- Each further edge counts one down, and raises the interrupt where it reaches 0; the edge that finds 0 loads the
latch (R173). -/
theorem CountedDown.next {s t u : State} {k : Nat} (ht : CountedDown s k t) (hk : k + 1 ≤ s.irqLatch.toNat + 1)
    (h : AfterAccess true t u) : CountedDown s (k + 1) u where
  cfg := h.cfg.trans ht.cfg
  irqLatch := h.irqLatch.trans ht.irqLatch
  irqEnable := h.irqEnable.trans ht.irqEnable
  irqReload := by simp [h.irqReload]
  irqCounter := by
    have hcounter := ht.irqCounter
    rw [if_neg (by omega)] at hcounter
    rw [h.irqCounter, counterAfterEdge, ht.irqReload, ht.irqLatch, if_neg (by decide)]
    split
    · next hzero =>
      have hcount : t.irqCounter = 0 := by simpa using hzero
      rw [if_pos (by bv_omega)]
    · next hne =>
      have hcount : t.irqCounter ≠ 0 := by simpa using hne
      rw [if_neg (by bv_omega)]
      bv_omega
  irqPending := by
    have hcounter := ht.irqCounter
    rw [if_neg (by omega)] at hcounter
    have hone : t.irqCounter = 1 ↔ s.irqLatch.toNat = k + 1 := by bv_omega
    rw [h.irqPending, pendingAfterEdge, ht.irqReload, ht.irqEnable]
    simp only [Bool.or_eq_true, ht.irqPending, Bool.and_true, Bool.not_false, beq_iff_eq, Bool.true_and, hone]
    omega

/-- `k + 1` edges from a requested reload complete, and count `k` down (R190). -/
theorem execAll_a12Edges {s : State} {k : Nat} (hcfg : ConfigWf s.cfg) (hfamily : s.cfg.profile.data.irqFamily = .edge)
    (hbit : s.cfg.profile.data.edgeBit = 12) (hlatch : 1 ≤ s.irqLatch.toNat) (hreload : s.irqReload = true)
    (henable : s.irqEnable = true) (hpending : s.irqPending = false) (hk : k ≤ s.irqLatch.toNat + 1) :
    ∃ t, execAll (PseudoOp.a12Edges (k + 1)).expand s = .next t ∧ CountedDown s k t := by
  induction k with
  | zero =>
    obtain ⟨t, hexec, hedge⟩ := execAll_a12Edge hcfg hfamily hbit
    exact ⟨t, hexec, .first hlatch hreload henable hpending hedge⟩
  | succ k ih =>
    obtain ⟨t, hexec, ht⟩ := ih (by omega)
    obtain ⟨u, hexec', hedge⟩ := execAll_a12Edge (s := t) (ht.cfg ▸ hcfg) (ht.cfg ▸ hfamily) (ht.cfg ▸ hbit)
    refine ⟨u, ?_, ht.next hk hedge⟩
    have hexpand : (PseudoOp.a12Edges (k + 1 + 1)).expand =
        (PseudoOp.a12Edges (k + 1)).expand ++ a12EdgeTransactions := by
      simp [PseudoOp.expand, List.replicate_succ']
    rw [hexpand, execAll_append hexec, hexec']

/-- Settles O41: the count after `k` edges is `CountedDown`, by induction on the edges. -/
theorem edgeInterruptComesAtTheLatchCount : Obligations.EdgeInterruptComesAtTheLatchCount := by
  unfold Obligations.EdgeInterruptComesAtTheLatchCount
  intro s k hcfg hfamily hbit hlatch hreload henable hpending hk
  obtain ⟨t, hexec, ht⟩ := execAll_a12Edges hcfg hfamily hbit hlatch hreload henable hpending hk
  exact ⟨t, hexec, ht.irqCounter, ht.irqPending⟩

end Sys2Proof.Machine

/-! ## What each transaction does to the engine's registers -/

namespace Sys2Proof.Machine

theorem OnlyOutput.keepsIrq {s t : State} (h : OnlyOutput s t) : KeepsIrq s t := by
  rw [h]
  exact ⟨rfl, rfl, rfl, rfl, rfl, rfl⟩

/-- A transaction that ends in an answer leaves the engine as the state it answers from has it. -/
theorem answer_keepsIrq {s t u : State} {r : Response} {d : Option Diag} (h : answer u r d = .next t)
    (hu : KeepsIrq s u) : KeepsIrq s t := by
  cases h
  exact hu.trans ⟨rfl, rfl, rfl, rfl, rfl, rfl⟩

theorem ramWrite_keepsIrq (a : Addr) (v : Byte) (s : State) : KeepsIrq s (ramWrite a v s) := by
  rcases ramWrite_cases a v s with ⟨-, e⟩ | ⟨-, e⟩ <;> rw [e] <;> exact ⟨rfl, rfl, rfl, rfl, rfl, rfl⟩

/-- A `cpu_write` leaves the engine alone, but for a register write (R109). -/
theorem busWrite_keepsIrq {a : Addr} {v : Byte} {s t : State} (h : busWrite a v s = .next t)
    (hreg : 0x8000 ≤ a.toNat → KeepsIrq s (registerWrite a v s)) : KeepsIrq s t := by
  rcases busWrite_cases a v s with ⟨-, e⟩ | ⟨-, -, e⟩ | ⟨-, -, -, e⟩ | ⟨-, ha, e⟩
  · exact answer_keepsIrq (e.symm.trans h) (.refl s)
  · exact answer_keepsIrq (e.symm.trans h) (.refl s)
  · exact answer_keepsIrq (e.symm.trans h) (ramWrite_keepsIrq a v s)
  · exact answer_keepsIrq (e.symm.trans h) (hreg ha)

theorem readChr_keepsIrq {a : Addr} {s t : State} (h : readChr a s = .next t) : KeepsIrq s t := by
  unfold readChr at h
  split at h
  · cases h
  · exact answer_keepsIrq h (noteWrap_onlyOutput s _).keepsIrq

theorem writeChr_keepsIrq {a : Addr} {v : Byte} {s t : State} (h : writeChr a v s = .next t) : KeepsIrq s t := by
  unfold writeChr at h
  split at h
  · cases h
  · exact answer_keepsIrq h ((noteWrap_onlyOutput s _).keepsIrq.trans ⟨rfl, rfl, rfl, rfl, rfl, rfl⟩)

/-- A `ppu_read` changes the engine by the hook at most, and only in range (R110, R172). -/
theorem execPpuRead_engine {a : Addr} {s t : State} (h : execPpuRead a s = .next t) :
    KeepsIrq s t ∨ a.toNat ≤ 0x1FFF ∧ KeepsIrq (edgeHook s a) t := by
  rcases Nat.lt_or_ge 0x1FFF a.toNat with ha | ha
  · rw [execPpuRead_of_outOfRange ha] at h
    exact .inl (answer_keepsIrq h (.refl s))
  · rw [execPpuRead_of_inRange ha] at h
    exact .inr ⟨ha, readChr_keepsIrq h⟩

/-- A `ppu_write`, likewise (R111, R172). -/
theorem execPpuWrite_engine {a : Addr} {v : Byte} {s t : State} (h : execPpuWrite a v s = .next t) :
    KeepsIrq s t ∨ a.toNat ≤ 0x1FFF ∧ KeepsIrq (edgeHook s a) t := by
  rcases Nat.lt_or_ge 0x1FFF a.toNat with ha | ha
  · rw [execPpuWrite_of_outOfRange ha] at h
    exact .inl (answer_keepsIrq h (.refl s))
  · rw [execPpuWrite_of_inRange ha] at h
    exact .inr ⟨ha, writeChr_keepsIrq h⟩

theorem execSaveWrite_keepsIrq {o : Addr} {v : Byte} {s t : State} (h : execSaveWrite o v s = .next t) :
    KeepsIrq s t := by
  refine answer_keepsIrq h ?_
  split
  · exact ⟨rfl, rfl, rfl, rfl, rfl, rfl⟩
  · exact .refl s

/-- What a shift row of Profile S commits is no action of the engine (R244 to R247). -/
theorem shiftRow_keepsIrq {acts : BitVec 5 → List (Action Byte)} (hacts : ∀ x, ∀ act ∈ acts x, act.isIrq = false)
    (b : Bool) (s : State) : KeepsIrq s (serialShift b (fun x => applyActions (acts x)) s) :=
  serialShift_keepsIrq (fun x u => applyActions_keepsIrq (hacts x) u) b s

end Sys2Proof.Machine

/-! ## The listed events -/

namespace Sys2Proof.Machine

/-- The action clears the interrupt: an acknowledge, or an `irq_enable` of 0 (R185, R187). -/
def clearsPending : Action Byte → Bool
  | .irqEnable b => !b.getLsbD 0
  | .irqAck => true
  | _ => false

theorem applyAction_irqPending (act : Action Byte) (s : State) :
    (applyAction act s).irqPending = (s.irqPending && !clearsPending act) := by
  cases act
  case irqEnable => rw [applyAction, writeIrqEnable_fields, clearsPending, Bool.not_not]
  all_goals simp [applyAction, clearsPending, clearIrq]

theorem applyActions_irqPending (acts : List (Action Byte)) (s : State) :
    (applyActions acts s).irqPending = (s.irqPending && !acts.any clearsPending) := by
  induction acts generalizing s with
  | nil => simp [applyActions]
  | cons act acts ih =>
    have hcons : applyActions (act :: acts) s = applyActions acts (applyAction act s) := rfl
    rw [hcons, ih, applyAction_irqPending, List.any_cons, Bool.not_or, Bool.and_assoc]

/-- The transactions that clear the level (R188). -/
inductive ClearsLevel : Instr → Prop
  | irqClear : ClearsLevel .irqClear
  | reset : ClearsLevel .reset
  | disable (a : Addr) (v : Byte) : ClearsLevel (.eIrqDisable a v)
  | ack (a : Addr) (v : Byte) : ClearsLevel (.cIrqAck a v)
  | control (a : Addr) (v : Byte) (h : v.getLsbD 0 = false) : ClearsLevel (.cIrqControl a v)

/-- Every way in which transaction `i` of a reference profile may change the level (R188). -/
inductive PendingChange (i : Instr) (s t : State) : Prop
  | none (h : t.irqPending = s.irqPending)
  | edge {a : Addr} (hi : i = .ppuRead a ∨ ∃ v, i = .ppuWrite a v) (ha : a.toNat ≤ 0x1FFF)
      (h : t.irqPending = pendingAfterEdge s (isRisingEdge s a))
  | scanline (hi : i = .scanline) (hticks : scanlineTicks s = true) (h : t.irqPending = pendingAfterTick s)
  | clock {n : Addr} (hi : i = .clock n) (hticks : clockTicks s = true)
      (h : t.irqPending = (ticks n.toNat s).irqPending)
  | clear (hi : ClearsLevel i) (h : t.irqPending = false)

theorem KeepsIrq.pendingChange {i : Instr} {s t : State} (h : KeepsIrq s t) : PendingChange i s t := .none h.irqPending

/-- An access out of range changes nothing of the engine, one in range what the hook changes (R172). -/
theorem pendingChange_of_access {i : Instr} {a : Addr} {s t : State} (hi : i = .ppuRead a ∨ ∃ v, i = .ppuWrite a v)
    (h : KeepsIrq s t ∨ a.toNat ≤ 0x1FFF ∧ KeepsIrq (edgeHook s a) t) : PendingChange i s t := by
  obtain h | ⟨ha, h⟩ := h
  · exact h.pendingChange
  · refine .edge hi ha ?_
    rw [h.irqPending, edgeHook_eq]

/-- A second-level row in its own profile: in range its effect, below the range nothing (R109). -/
theorem rowWrite_irqPending {p : Profile} {effect : State → State} {a : Addr} {v : Byte} {s t : State}
    (hp : s.cfg.profile = p) (h : rowWrite p effect a v s = .next t) :
    t.irqPending = s.irqPending ∨ t.irqPending = (effect s).irqPending := by
  rcases Nat.lt_or_ge a.toNat s.cfg.cpuWindowLo.toNat with ha | ha
  · rw [rowWrite_of_outOfRange ha] at h
    exact .inl (by cases h; rfl)
  · rw [rowWrite_of_inRange hp ha] at h
    exact .inr (by cases h; rfl)

/-- A row whose effect keeps the level, or is of a transaction that clears it. -/
theorem pendingChange_of_row {i : Instr} {p : Profile} {effect : State → State} {a : Addr} {v : Byte} {s t : State}
    (hp : s.cfg.profile = p) (h : rowWrite p effect a v s = .next t)
    (heffect : (effect s).irqPending = s.irqPending ∨ (ClearsLevel i ∧ (effect s).irqPending = false)) :
    PendingChange i s t := by
  rcases rowWrite_irqPending hp h with hkept | hdone
  · exact .none hkept
  · rcases heffect with heffect | ⟨hi, heffect⟩
    · exact .none (hdone.trans heffect)
    · exact .clear hi (hdone.trans heffect)

/-- A row that stands for a list of actions clears the level only if one of them does. -/
theorem pendingChange_of_actions {i : Instr} {p : Profile} {acts : State → List (Action Byte)} {a : Addr} {v : Byte}
    {s t : State} (hp : s.cfg.profile = p) (h : rowWrite p (fun s => applyActions (acts s) s) a v s = .next t)
    (hacts : (acts s).any clearsPending = true → ClearsLevel i) : PendingChange i s t := by
  refine pendingChange_of_row hp h ?_
  rw [applyActions_irqPending]
  cases hany : (acts s).any clearsPending with
  | false => exact .inl (by simp)
  | true => exact .inr ⟨hacts hany, by simp⟩

theorem WritesBank.clearsPending {act : Action Byte} (h : WritesBank act) : clearsPending act = false := by
  cases h <;> rfl

/-- `C_IRQ_CONTROL` clears the level where it disables the interrupt (R263). -/
theorem irqControlActions_clearsPending (v : Byte) : (irqControlActions v).any clearsPending = !v.getLsbD 0 := by
  have hbit : (byteField v 0 1).getLsbD 0 = v.getLsbD 0 := by simp [byteField]
  unfold irqControlActions
  split <;> simp only [List.cons_append, List.nil_append, List.any_cons, List.any_nil, clearsPending, hbit,
    Bool.or_false]

/-- A reference profile reads a `cpu_write` below the register range only (R90). -/
theorem toNat_lt_of_readIn {p : Profile} {a : Addr} {v : Byte} (hp : p ∈ [Profile.S, Profile.E, Profile.C])
    (h : (Instr.cpuWrite a v).readIn p = true) : a.toNat < 0x8000 := by
  simp only [List.mem_cons, List.not_mem_nil, or_false] at hp
  rcases hp with rfl | rfl | rfl <;> exact of_decide_eq_true h

/-- The transactions of the reference profiles, one by one: a row is performed in its own profile, so its effect is the
row's own. -/
theorem exec_pendingChange {i : Instr} {s t : State} (hprofile : s.cfg.profile ∈ [Profile.S, Profile.E, Profile.C])
    (hread : i.readIn s.cfg.profile = true) (h : exec i s = .next t) : PendingChange i s t := by
  cases i
  case cpuRead => exact (execCpuRead_onlyOutput h).keepsIrq.pendingChange
  case cpuWrite a v =>
    have hlow := toNat_lt_of_readIn hprofile hread
    exact (busWrite_keepsIrq h fun ha => absurd ha (Nat.not_le.mpr hlow)).pendingChange
  case ppuRead => exact pendingChange_of_access (.inl rfl) (execPpuRead_engine h)
  case ppuWrite => exact pendingChange_of_access (.inr ⟨_, rfl⟩) (execPpuWrite_engine h)
  case reset => exact .clear .reset (by cases h; rfl)
  case irqClear => exact .clear .irqClear (by cases h; rfl)
  case scanline =>
    rw [exec_scanline] at h
    cases h
    split
    · next hticks => exact .scanline rfl hticks (by rw [tick_eq]; rfl)
    · exact .none rfl
  case clock =>
    rw [exec_clock] at h
    cases h
    split
    · next hticks => exact .clock rfl hticks rfl
    · exact .none rfl
  case irqState | getMirror | saveRead | dirtyRead => exact (answer_keepsIrq h (.refl s)).pendingChange
  case saveWrite => exact (execSaveWrite_keepsIrq h).pendingChange
  case dirtyClear => exact (answer_keepsIrq (s := s) h ⟨rfl, rfl, rfl, rfl, rfl, rfl⟩).pendingChange
  all_goals have hp := beq_iff_eq.mp hread
  case sReset => exact pendingChange_of_row (effect := fun s => (s.setSerial 0 0).setPrgMode 3) hp h (.inl rfl)
  case sShiftControl | sShiftChr0 | sShiftChr1 | sShiftPrg =>
    exact pendingChange_of_row hp h (.inl (shiftRow_keepsIrq (by simp [Action.isIrq]) _ s).irqPending)
  case eBankData v =>
    exact pendingChange_of_actions (acts := fun s => [bankDataAction s.sel v]) hp h
      (by simp [(bankDataAction_writesBank s.sel v).clearsPending])
  case eIrqDisable a v => exact pendingChange_of_actions (acts := fun _ => _) hp h fun _ => .disable a v
  case cIrqAck a v => exact pendingChange_of_actions (acts := fun _ => _) hp h fun _ => .ack a v
  case cIrqControl a v =>
    refine pendingChange_of_actions (acts := fun _ => irqControlActions v) hp h fun hany => .control a v ?_
    simpa [irqControlActions_clearsPending] using hany
  all_goals exact pendingChange_of_actions (acts := fun _ => _) hp h (by simp [clearsPending])

/-- Of the reference profiles only E has the edge family. -/
theorem eq_E_of_edge {p : Profile} (hp : p ∈ [Profile.S, Profile.E, Profile.C]) (h : p.data.irqFamily = .edge) :
    p = .E := by
  revert p
  decide

/-- Of the reference profiles only C has the counter family. -/
theorem eq_C_of_counter {p : Profile} (hp : p ∈ [Profile.S, Profile.E, Profile.C])
    (h : p.data.irqFamily = .counter) : p = .C := by
  revert p
  decide

theorem irqFamily_of_isRisingEdge {s : State} {a : Addr} (h : isRisingEdge s a = true) :
    s.cfg.profile.data.irqFamily = .edge := by
  simp only [isRisingEdge, Bool.and_eq_true, beq_iff_eq] at h
  obtain ⟨⟨hfamily, -⟩, -⟩ := h
  exact hfamily

/-- What an access that raises the interrupt finds (R173). -/
theorem raises_of_pendingAfterEdge {s : State} {rises : Bool} (hpending : s.irqPending = false)
    (h : pendingAfterEdge s rises = true) :
    rises = true ∧ s.irqReload = false ∧ s.irqCounter = 1 ∧ s.irqEnable = true := by
  simpa [pendingAfterEdge, hpending, and_assoc] using h

/-- Settles O42: by the ways in which the level changes (`PendingChange`). -/
theorem pendingChangesOnlyByTheListedEvents : Obligations.PendingChangesOnlyByTheListedEvents := by
  unfold Obligations.PendingChangesOnlyByTheListedEvents
  intro s t i hprofile _ hread hexec
  constructor
  · intro hclear hset
    cases exec_pendingChange hprofile hread hexec with
    | none h => exact absurd (h.symm.trans hset) (by simp [hclear])
    | @edge a hi ha h =>
      obtain ⟨hrises, hreload, hcounter, henable⟩ := raises_of_pendingAfterEdge hclear (h.symm.trans hset)
      have hE := eq_E_of_edge hprofile (irqFamily_of_isRisingEdge hrises)
      exact .inl ⟨henable, hE, hcounter, hreload, a, hrises, ha, hi⟩
    | scanline hi hticks h =>
      obtain ⟨hfamily, hmode⟩ := (scanlineTicks_iff s).mp hticks
      have henable : s.irqEnable = true := by
        rw [h, pendingAfterTick, hclear, Bool.false_or, Bool.and_eq_true] at hset
        exact hset.1
      exact .inr ⟨henable, eq_C_of_counter hprofile hfamily, .inl ⟨hi, hmode⟩⟩
    | @clock n hi hticks h =>
      obtain ⟨hfamily, hmode⟩ := (clockTicks_iff s).mp hticks
      have henable : s.irqEnable = true :=
        ((ticks_clocks n.toNat s).irqPending (h.symm.trans hset)).resolve_left (by simp [hclear])
      exact .inr ⟨henable, eq_C_of_counter hprofile hfamily, .inr ⟨n, hi, hmode⟩⟩
    | clear _ h => exact nomatch h.symm.trans hset
  · intro hset hclear
    cases exec_pendingChange hprofile hread hexec with
    | none h => exact absurd (h.symm.trans hclear) (by simp [hset])
    | edge _ _ h => exact absurd (h.symm.trans hclear) (by simp [pendingAfterEdge, hset])
    | scanline _ _ h => exact absurd (h.symm.trans hclear) (by simp [pendingAfterTick, hset])
    | clock _ _ h => exact absurd (h.symm.trans hclear) (by simp [ticks_pending hset])
    | clear hi _ =>
      cases hi with
      | irqClear => exact .inl rfl
      | reset => exact .inr (.inl rfl)
      | disable a v => exact .inr (.inr (.inl ⟨a, v, rfl⟩))
      | ack a v => exact .inr (.inr (.inr (.inl ⟨a, v, rfl⟩)))
      | control a v hbit => exact .inr (.inr (.inr (.inr ⟨a, v, rfl, hbit⟩)))

end Sys2Proof.Machine

/-! ## Profiles with no engine -/

namespace Sys2Proof.Machine

/-- No field of the engine leaves its reset value, taken one by one (R189, R301). -/
structure KeepsZero (s t : State) : Prop where
  irqLatch : s.irqLatch = 0 → t.irqLatch = 0
  irqCounter : s.irqCounter = 0 → t.irqCounter = 0
  irqEnable : s.irqEnable = false → t.irqEnable = false
  irqPending : s.irqPending = false → t.irqPending = false
  irqReload : s.irqReload = false → t.irqReload = false
  countMode : s.countMode = false → t.countMode = false

theorem KeepsIrq.keepsZero {s t : State} (h : KeepsIrq s t) : KeepsZero s t :=
  ⟨h.irqLatch.trans, h.irqCounter.trans, h.irqEnable.trans, h.irqPending.trans, h.irqReload.trans, h.countMode.trans⟩

/-- Without an engine the hook writes `edge_prev` only (R172). -/
theorem edgeHook_keepsIrq {s : State} (hnone : s.cfg.profile.data.irqFamily = .none) (a : Addr) :
    KeepsIrq s (edgeHook s a) := by
  rw [edgeHook_other (by simp [hnone])]
  exact ⟨rfl, rfl, rfl, rfl, rfl, rfl⟩

/-- Without an engine a PPU access leaves its registers alone. -/
theorem keepsIrq_of_access {s t : State} {a : Addr} (hnone : s.cfg.profile.data.irqFamily = .none)
    (h : KeepsIrq s t ∨ a.toNat ≤ 0x1FFF ∧ KeepsIrq (edgeHook s a) t) : KeepsIrq s t :=
  h.elim id fun h => (edgeHook_keepsIrq hnone a).trans h.2

/-- Without an engine a row leaves its registers alone, if those of the profiles without one do (R189). -/
theorem rowWrite_keepsIrq {p : Profile} {effect : State → State} {a : Addr} {v : Byte} {s t : State}
    (hnone : s.cfg.profile.data.irqFamily = .none) (h : rowWrite p effect a v s = .next t)
    (heffect : p.data.irqFamily = .none → KeepsIrq s (effect s)) : KeepsIrq s t := by
  rcases rowWrite_cases p effect a v s with ⟨rfl, -, e⟩ | ⟨-, e⟩
  · exact answer_keepsIrq (e.symm.trans h) (heffect hnone)
  · exact busWrite_keepsIrq (e.symm.trans h) fun _ => registerWrite_keepsIrq hnone a v

/-- Without an engine only `irq_clear` and `reset` write its registers, and both write reset values (R181, R300). -/
theorem exec_keepsZero {i : Instr} {s t : State} (hnone : s.cfg.profile.data.irqFamily = .none)
    (h : exec i s = .next t) : KeepsZero s t := by
  cases i
  case cpuRead => exact (execCpuRead_onlyOutput h).keepsIrq.keepsZero
  case cpuWrite a v => exact (busWrite_keepsIrq h fun _ => registerWrite_keepsIrq hnone a v).keepsZero
  case ppuRead => exact (keepsIrq_of_access hnone (execPpuRead_engine h)).keepsZero
  case ppuWrite => exact (keepsIrq_of_access hnone (execPpuWrite_engine h)).keepsZero
  case reset =>
    cases h
    exact ⟨fun _ => rfl, fun _ => rfl, fun _ => rfl, fun _ => rfl, fun _ => rfl, fun _ => rfl⟩
  case irqClear =>
    cases h
    exact ⟨id, id, id, fun _ => rfl, id, id⟩
  case scanline =>
    have hticks : ¬ scanlineTicks s = true := by simp [scanlineTicks, hnone]
    rw [exec_scanline, if_neg hticks] at h
    exact (answer_keepsIrq h (.refl s)).keepsZero
  case clock =>
    have hticks : ¬ clockTicks s = true := by simp [clockTicks, hnone]
    rw [exec_clock, if_neg hticks] at h
    exact (answer_keepsIrq h (.refl s)).keepsZero
  case irqState | getMirror | saveRead | dirtyRead => exact (answer_keepsIrq h (.refl s)).keepsZero
  case saveWrite => exact (execSaveWrite_keepsIrq h).keepsZero
  case dirtyClear => exact (answer_keepsIrq (s := s) h ⟨rfl, rfl, rfl, rfl, rfl, rfl⟩).keepsZero
  case sReset =>
    exact (rowWrite_keepsIrq (effect := fun s => (s.setSerial 0 0).setPrgMode 3) hnone h
      fun _ => ⟨rfl, rfl, rfl, rfl, rfl, rfl⟩).keepsZero
  case sShiftControl | sShiftChr0 | sShiftChr1 | sShiftPrg =>
    exact (rowWrite_keepsIrq hnone h fun _ => shiftRow_keepsIrq (by simp [Action.isIrq]) _ s).keepsZero
  all_goals exact (rowWrite_keepsIrq hnone h nofun).keepsZero

/-- Settles O43: the decode drops every action of the engine (`produces_noIrq`), and no transaction takes a register of
it from its reset value (`exec_keepsZero`). -/
theorem withoutAnEngineNoInterrupt : Obligations.WithoutAnEngineNoInterrupt := by
  unfold Obligations.WithoutAnEngineNoInterrupt
  constructor
  · intro d target sel a v value hnone act hact
    exact (List.mem_append.mp hact).elim (produces_noIrq hnone) (produces_noIrq hnone)
  · intro s t i hnone hexec
    obtain ⟨hlatch, hcounter, henable, hpending, hreload, hmode⟩ := exec_keepsZero hnone hexec
    refine ⟨fun hclear => ?_, hlatch, hcounter, henable, hreload, hmode⟩
    have hquery := exec_irqState t
    rw [hpending hclear] at hquery
    exact ⟨hpending hclear, hquery⟩

end Sys2Proof.Machine

/-! # Proofs of the obligations cited from `44_serial_loader`

## Tables: every function of a committed value is one -/

namespace Sys2Proof

/-- The commits with the given rows under each target (R203). -/
def Commits.ofRows (rows : Target → List WriteRow) : Commits where
  t0 := rows .t0
  t1 := rows .t1
  t2 := rows .t2
  t3 := rows .t3

@[simp] theorem Commits.of_ofRows (rows : Target → List WriteRow) (t : Target) : (Commits.ofRows rows).of t = rows t := by
  cases t <;> rfl

/-- Settles O58: a committed value is the low five bits of its data byte, so each target has the table of the function of
a write that looks at these bits only (`exists_rows_produces`). -/
theorem everyCommitHasATable : Obligations.EveryCommitHasATable := by
  unfold Obligations.EveryCommitHasATable
  intro d f hirq
  have htable (t : Target) : ∃ rows : List WriteRow, ∀ sel a v, d.produces rows sel a v = f t (v.setWidth 5) :=
    exists_rows_produces d (fun _ _ v => f t (v.setWidth 5)) fun hd _ _ v => hirq hd t (v.setWidth 5)
  choose rows hrows using htable
  refine ⟨.ofRows rows, fun t sel a value => ?_⟩
  have hvalue : (value.setWidth 8).setWidth 5 = value := by simp
  calc { d with commits := .ofRows rows }.commitDecode t sel a value
      = d.produces ((Commits.ofRows rows).of t) sel a (value.setWidth 8) := rfl
    _ = f t value := by rw [Commits.of_ofRows, hrows, hvalue]

end Sys2Proof

/-! ## The bits in the shift register -/

namespace Sys2Proof.Machine

/-- `shift[k] <- b` replaces the bit at position `k` and keeps the others (R202). -/
theorem getLsbD_pushBit (shift : BitVec 5) (k : BitVec 3) (b : Bool) {j : Nat} (hj : j < 5) :
    (pushBit shift k b).getLsbD j = if j = k.toNat then b else shift.getLsbD j := by
  by_cases hjk : j = k.toNat
  · cases b <;> simp [pushBit, ← hjk, hj]
  · rcases Nat.lt_or_gt_of_ne hjk with hlt | hgt
    · cases b <;> simp [pushBit, hjk, hlt, hj]
    · have hpos : j - k.toNat ≠ 0 := by omega
      cases b <;> simp [pushBit, hjk, hj, hpos]

/-- Five bits as a value, least significant first (R206). -/
theorem toNat_eq_sum_bits (x : BitVec 5) : x.toNat = (x.getLsbD 0).toNat + 2 * (x.getLsbD 1).toNat +
    4 * (x.getLsbD 2).toNat + 8 * (x.getLsbD 3).toNat + 16 * (x.getLsbD 4).toNat := by
  revert x; decide

/-- The bit a serial write shifts in (R202). -/
theorem toNat_getLsbD_zero (v : Byte) : (v.getLsbD 0).toNat = v.toNat % 2 := by
  rw [BitVec.getLsbD, Nat.toNat_testBit, pow_zero, Nat.div_one]

end Sys2Proof.Machine

/-! ## A commit does not see the loader -/

namespace Sys2Proof.Machine

/-- No action reads or writes the loader or the output of a transaction (R240). -/
theorem applyAction_setSerial_setOutput (act : Action Byte) (s : State) (shift : BitVec 5) (count : BitVec 3)
    (r : Response) (d : Option Diag) :
    applyAction act ((s.setSerial shift count).setOutput r d) =
      ((applyAction act s).setSerial shift count).setOutput r d := by
  cases act
  case irqEnable => simp only [applyAction, writeIrqEnable_fields]; rfl
  all_goals rfl

theorem applyActions_setSerial_setOutput (acts : List (Action Byte)) (s : State) (shift : BitVec 5) (count : BitVec 3)
    (r : Response) (d : Option Diag) :
    applyActions acts ((s.setSerial shift count).setOutput r d) =
      ((applyActions acts s).setSerial shift count).setOutput r d := by
  induction acts generalizing s with
  | nil => rfl
  | cons act acts ih =>
    calc applyActions (act :: acts) ((s.setSerial shift count).setOutput r d)
        = applyActions acts (applyAction act ((s.setSerial shift count).setOutput r d)) := rfl
      _ = ((applyActions acts (applyAction act s)).setSerial shift count).setOutput r d := by
          rw [applyAction_setSerial_setOutput, ih]

/-- A commit performs its target's actions on the registers, whatever the loader holds (R203). -/
theorem commitTarget_setSerial_setOutput (t : Target) (a : Addr) (value : BitVec 5) (s : State) (shift : BitVec 5)
    (count : BitVec 3) (r : Response) (d : Option Diag) :
    commitTarget t a value ((s.setSerial shift count).setOutput r d) =
      ((commitTarget t a value s).setSerial shift count).setOutput r d :=
  applyActions_setSerial_setOutput _ s shift count r d

end Sys2Proof.Machine

/-! ## One serial write -/

namespace Sys2Proof.Machine

section
variable {s : State} {a : Addr} {v : Byte}

/-- A `cpu_write` in range to the register range is a register write (R109). -/
theorem exec_cpuWrite_register (hlo : s.cfg.cpuWindowLo.toNat ≤ a.toNat) (ha : 0x8000 ≤ a.toNat) :
    exec (.cpuWrite a v) s = .next ((registerWrite a v s).setOutput .none none) := by
  rcases busWrite_cases a v s with ⟨hout, -⟩ | ⟨-, hlow, -⟩ | ⟨-, -, hram, -⟩ | ⟨-, -, ebus⟩
  · omega
  · omega
  · omega
  · exact ebus

variable (hserial : s.cfg.profile.data.serial = true)
include hserial

/-- In a serial profile a byte with bit 7 set is a reset write (R201). -/
theorem registerWrite_of_bit7 (hv : v.getLsbD 7 = true) : registerWrite a v s = serialReset s := by
  rw [registerWrite, if_pos hserial, serialWrite, if_pos hv]

/-- In a serial profile a byte with bit 7 clear is a shift write, committed to its own address's target (R202, R204). -/
theorem registerWrite_of_bit7_clear (hv : v.getLsbD 7 = false) : registerWrite a v s =
    serialShift (v.getLsbD 0) (commitTarget (s.cfg.profile.data.serialTarget.lookup a) a) s := by
  rw [registerWrite, if_pos hserial, serialWrite, if_neg (Bool.eq_false_iff.mp hv)]

end

/-- A shift write before the fifth only fills the loader (R202). -/
theorem serialShift_of_count_ne {s : State} (h : s.count ≠ 4) (b : Bool) (commit : BitVec 5 → State → State) :
    serialShift b commit s = s.setSerial (pushBit s.shift s.count b) (s.count + 1) := if_neg h

/-- The fifth shift write commits the five bits and clears the loader (R202). -/
theorem serialShift_of_count_eq {s : State} (h : s.count = 4) (b : Bool) (commit : BitVec 5 → State → State) :
    serialShift b commit s =
      (commit (pushBit s.shift s.count b) (s.setSerial (pushBit s.shift s.count b) s.count)).setSerial 0 0 := if_pos h

end Sys2Proof.Machine

/-! ## Up to four shift writes, then a reset write or a fifth -/

namespace Sys2Proof.Machine

/-- The state after `n` shift writes from `s`, with `shift` in the loader; no write leaves `s` as it is. -/
def afterShifts (s : State) (n : Nat) (shift : BitVec 5) : State :=
  if n = 0 then s else (s.setSerial shift (BitVec.ofNat 3 n)).setOutput .none none

theorem afterShifts_succ (s : State) (n : Nat) (shift : BitVec 5) :
    afterShifts s (n + 1) shift = (s.setSerial shift (BitVec.ofNat 3 (n + 1))).setOutput .none none :=
  if_neg n.succ_ne_zero

@[simp] theorem afterShifts_cfg (s : State) (n : Nat) (shift : BitVec 5) : (afterShifts s n shift).cfg = s.cfg := by
  unfold afterShifts
  split <;> rfl

/-- From count 0, the count is the number of shift writes. -/
theorem afterShifts_count {s : State} (hcount : s.count = 0) (n : Nat) (shift : BitVec 5) :
    (afterShifts s n shift).count = BitVec.ofNat 3 n := by
  unfold afterShifts
  split
  · next hn => rw [hn, hcount]; rfl
  · rfl

/-- The next transaction that writes the loader and the output hides what the shift writes changed. -/
theorem setSerial_setOutput_afterShifts (s : State) (n : Nat) (shift x : BitVec 5) (c : BitVec 3) (r : Response)
    (d : Option Diag) :
    ((afterShifts s n shift).setSerial x c).setOutput r d = (s.setSerial x c).setOutput r d := by
  unfold afterShifts
  split <;> rfl

/-- A reset write after `n` shift writes discards their bits (R201). -/
theorem exec_resetWrite_afterShifts {s : State} {a : Addr} {v : Byte} (hserial : s.cfg.profile.data.serial = true)
    (hlo : s.cfg.cpuWindowLo.toNat ≤ a.toNat) (ha : 0x8000 ≤ a.toNat) (hv : v.getLsbD 7 = true) (n : Nat)
    (shift : BitVec 5) :
    exec (.cpuWrite a v) (afterShifts s n shift) = .next ((serialReset s).setOutput .none none) := by
  rw [exec_cpuWrite_register (by simpa using hlo) ha, registerWrite_of_bit7 (by simpa using hserial) hv]
  unfold afterShifts
  split <;> rfl

/-- A shift write after fewer than four fills the next position of the loader (R202). -/
theorem exec_shiftWrite_afterShifts {s : State} {a : Addr} {v : Byte} (hserial : s.cfg.profile.data.serial = true)
    (hcount : s.count = 0) (hlo : s.cfg.cpuWindowLo.toNat ≤ a.toNat) (ha : 0x8000 ≤ a.toNat)
    (hv : v.getLsbD 7 = false) {n : Nat} (hn : n < 4) (shift : BitVec 5) :
    exec (.cpuWrite a v) (afterShifts s n shift) = .next (afterShifts s (n + 1)
      (pushBit (afterShifts s n shift).shift (BitVec.ofNat 3 n) (v.getLsbD 0))) := by
  have hnot : (afterShifts s n shift).count ≠ 4 := by
    rw [afterShifts_count hcount]
    interval_cases n <;> decide
  rw [exec_cpuWrite_register (by simpa using hlo) ha, registerWrite_of_bit7_clear (by simpa using hserial) hv,
    serialShift_of_count_ne hnot, afterShifts_count hcount, setSerial_setOutput_afterShifts, afterShifts_succ,
    BitVec.ofNat_add]
  rfl

/-- The fifth shift write commits the five bits to the target of its own address (R202, R204). -/
theorem exec_fifthWrite_afterShifts {s : State} {a : Addr} {v : Byte} (hserial : s.cfg.profile.data.serial = true)
    (hlo : s.cfg.cpuWindowLo.toNat ≤ a.toNat) (ha : 0x8000 ≤ a.toNat) (hv : v.getLsbD 7 = false) (shift : BitVec 5) :
    exec (.cpuWrite a v) (afterShifts s 4 shift) = .next (((commitTarget (s.cfg.profile.data.serialTarget.lookup a) a
      (pushBit shift 4 (v.getLsbD 0)) s).setSerial 0 0).setOutput .none none) := by
  rw [exec_cpuWrite_register (by simpa using hlo) ha, registerWrite_of_bit7_clear (by simpa using hserial) hv,
    afterShifts_cfg, afterShifts_succ, serialShift_of_count_eq rfl]
  have hcommit := commitTarget_setSerial_setOutput (s.cfg.profile.data.serialTarget.lookup a) a
    (pushBit shift 4 (v.getLsbD 0)) s (pushBit shift 4 (v.getLsbD 0)) 4 .none none
  exact congrArg Host.Outcome.next (congrArg (fun t : State => (t.setSerial 0 0).setOutput .none none) hcommit :)

/-- The transactions of a list of writes up to and with write `k`, performed in two parts (R69). -/
theorem execAll_take_succ {is : List Instr} {k : Nat} (hk : k < is.length) {s t : State}
    (h : execAll (is.take k) s = .next t) : execAll (is.take (k + 1)) s = execAll [is[k]] t := by
  rw [← List.take_append_getElem hk, execAll_append h]

theorem execAll_singleton {i : Instr} {s t : State} (h : exec i s = .next t) : execAll [i] s = .next t := by
  simp only [execAll, h]

section
variable {s : State} {a : Fin 5 → Addr} {v : Fin 5 → Byte} (hserial : s.cfg.profile.data.serial = true)
  (hcount : s.count = 0)
  (hwrites : ∀ k, s.cfg.cpuWindowLo.toNat ≤ (a k).toNat ∧ 0x8000 ≤ (a k).toNat ∧ (v k).getLsbD 7 = false)
include hserial hcount hwrites

/-- From count 0 up to four shift writes leave everything but the loader alone, and bit `j` of it is that of write `j`
(R202, R206). -/
theorem execAll_shiftWrites {n : Nat} (hn : n ≤ 4) : ∃ shift : BitVec 5,
    execAll ((List.ofFn fun k => Instr.cpuWrite (a k) (v k)).take n) s = .next (afterShifts s n shift) ∧
    ∀ j : Fin 5, j.val < n → shift.getLsbD j = (v j).getLsbD 0 := by
  induction n with
  | zero => exact ⟨s.shift, rfl, fun j hj => absurd hj (Nat.not_lt_zero j)⟩
  | succ n ih =>
    obtain ⟨shift, hexec, hbits⟩ := ih (by omega)
    obtain ⟨hlo, ha, hv⟩ := hwrites ⟨n, by omega⟩
    have hnext := exec_shiftWrite_afterShifts hserial hcount hlo ha hv (by omega : n < 4) shift
    refine ⟨_, (execAll_take_succ (by rw [List.length_ofFn]; omega) hexec).trans
      (execAll_singleton (by rw [List.getElem_ofFn]; exact hnext)),
      fun j hj => ?_⟩
    have hposition : (BitVec.ofNat 3 n).toNat = n := by simp; omega
    rw [getLsbD_pushBit _ _ _ j.isLt, hposition]
    split
    · next hjn => simp [← hjn]
    · next hjn =>
      have hj' : j.val < n := by omega
      have hn0 : n ≠ 0 := by omega
      rw [afterShifts, if_neg hn0]
      exact hbits j hj'

/-- The fifth of five shift writes commits their bits, the first the least significant, to the target of its own address
(R204, R206). -/
theorem execAll_fiveShiftWrites : ∃ value : BitVec 5, (∀ j : Fin 5, value.getLsbD j = (v j).getLsbD 0) ∧
    execAll (List.ofFn fun k => Instr.cpuWrite (a k) (v k)) s =
      .next (((commitTarget (s.cfg.profile.data.serialTarget.lookup (a 4)) (a 4) value s).setSerial 0 0).setOutput
        .none none) := by
  obtain ⟨shift, hexec, hbits⟩ := execAll_shiftWrites hserial hcount hwrites (le_refl 4)
  obtain ⟨hlo, ha, hv⟩ := hwrites 4
  refine ⟨pushBit shift 4 ((v 4).getLsbD 0), fun j => ?_,
    (execAll_take_succ (by simp) hexec).trans (execAll_singleton (exec_fifthWrite_afterShifts hserial hlo ha hv shift))⟩
  rw [getLsbD_pushBit _ _ _ j.isLt]
  split
  · next hj => rw [show j = 4 from Fin.ext hj]
  · next hj => exact hbits j (by simp at hj; omega)

end

/-- Settles O45: the loader after `n` shift writes (`execAll_shiftWrites`), then a reset write
(`exec_resetWrite_afterShifts`) or the fifth (`execAll_fiveShiftWrites`). -/
theorem fiveSerialWritesCommitOnce : Obligations.FiveSerialWritesCommitOnce := by
  unfold Obligations.FiveSerialWritesCommitOnce
  intro s a v hserial hcount hwrites
  constructor
  · intro n hn
    obtain ⟨shift, hexec, -⟩ := execAll_shiftWrites hserial hcount hwrites hn
    refine ⟨shift, hexec.trans (apply_ite Host.Outcome.next ..), fun a' v' hlo ha hv => ?_⟩
    exact (execAll_append hexec).trans (execAll_singleton (exec_resetWrite_afterShifts hserial hlo ha hv n shift))
  · obtain ⟨value, hbits, hexec⟩ := execAll_fiveShiftWrites hserial hcount hwrites
    refine ⟨value, ?_, hexec⟩
    have hbit (j : Fin 5) : (value.getLsbD j).toNat = (v j).toNat % 2 := by rw [hbits, toNat_getLsbD_zero]
    rw [toNat_eq_sum_bits, ← hbit 0, ← hbit 1, ← hbit 2, ← hbit 3, ← hbit 4]
    rfl

end Sys2Proof.Machine

/-! # Proofs of the obligations cited from `45_prg_ram_guard`

## One byte stored -/

namespace Sys2Proof

/-- What a write of one byte makes of a store in canonical form. -/
theorem Memory.write_spec {m : Memory} (hm : m.wf) (o : Nat) (v : Byte) :
    (m.write o v).wf ∧ (m.write o v).read o = v ∧ ∀ o', o' ≠ o → (m.write o v).read o' = m.read o' :=
  ⟨Memory.write_wf hm o v, Memory.read_write_same hm o v, fun _ h => Memory.read_write_other m v h⟩

end Sys2Proof

/-! ## The guarded `cpu_write` -/

namespace Sys2Proof.Machine

/-- A `cpu_write` in range to 0x6000..0x7FFF goes through the guard (R109, R223). -/
theorem exec_cpuWrite_prgRam {s : State} {a : Addr} {v : Byte} (hlo : s.cfg.cpuWindowLo.toNat ≤ a.toNat)
    (h1 : 0x6000 ≤ a.toNat) (h2 : a.toNat ≤ 0x7FFF) :
    exec (.cpuWrite a v) s = .next ((ramWrite a v s).setOutput .none none) := by
  rcases busWrite_cases a v s with ⟨hout, -⟩ | ⟨-, hlow, -⟩ | ⟨-, -, -, ebus⟩ | ⟨-, hregister, -⟩
  · omega
  · omega
  · exact ebus
  · omega

/-- When the guard blocks a CPU write (R223). -/
theorem ramWritable_eq_false_iff (s : State) :
    ramWritable s = false ↔ s.cfg.ramSize = 0 ∨ s.ramEnable = false ∨ s.ramProtect = true := by
  simp only [← Bool.not_eq_true, ramWritable_iff, not_and_or, not_not]

/-- A blocked write does nothing (R223). -/
theorem ramWrite_of_blocked {s : State} (h : ramWritable s = false) (a : Addr) (v : Byte) : ramWrite a v s = s :=
  if_neg (Bool.eq_false_iff.mp h)

/-- An accepted write stores the byte and sets `dirty` (R223). -/
theorem ramWrite_of_accepted {s : State} (h : ramWritable s = true) (a : Addr) (v : Byte) :
    ramWrite a v s = (s.setPrgRam (s.prgRam.write (ramOffset s.cfg.ramSize a) v)).setDirty true := if_pos h

/-- Settles O27: the write is `ramWrite` (`exec_cpuWrite_prgRam`), and the guard decides between
`ramWrite_of_blocked` and `ramWrite_of_accepted`. -/
theorem cpuWriteToPrgRamObeysTheGuard : Obligations.CpuWriteToPrgRamObeysTheGuard := by
  unfold Obligations.CpuWriteToPrgRamObeysTheGuard
  intro s a v hlo h1 h2
  rw [exec_cpuWrite_prgRam hlo h1 h2]
  constructor
  · intro hblocked
    rw [ramWrite_of_blocked ((ramWritable_eq_false_iff s).mpr hblocked)]
    rfl
  · intro hsize henable hprotect hwf
    rw [ramWrite_of_accepted ((ramWritable_iff s).mpr ⟨hsize, henable, hprotect⟩)]
    exact ⟨_, rfl, Memory.write_spec hwf _ v⟩

end Sys2Proof.Machine

/-! ## The persistence port -/

namespace Sys2Proof.Machine

section
variable {s : State} {o : Addr}

theorem exec_saveRead_of_lt (h : o.toNat < s.cfg.ramSize) :
    exec (.saveRead o) s = .next (s.setOutput (.byte (s.prgRam.read o.toNat)) none) := by
  rw [exec, execSaveRead, if_pos h]
  rfl

theorem exec_saveRead_of_le (h : s.cfg.ramSize ≤ o.toNat) :
    exec (.saveRead o) s = .next (s.setOutput (.byte openBus) none) := by
  rw [exec, execSaveRead, if_neg (Nat.not_lt.mpr h)]
  rfl

theorem exec_saveWrite_of_lt (h : o.toNat < s.cfg.ramSize) (v : Byte) :
    exec (.saveWrite o v) s = .next ((s.setPrgRam (s.prgRam.write o.toNat v)).setOutput .none none) := by
  rw [exec, execSaveWrite, if_pos h]
  rfl

theorem exec_saveWrite_of_le (h : s.cfg.ramSize ≤ o.toNat) (v : Byte) :
    exec (.saveWrite o v) s = .next (s.setOutput .none none) := by
  rw [exec, execSaveWrite, if_neg (Nat.not_lt.mpr h)]
  rfl

end

/-- Settles O49: one equation per transaction on either side of `S_ram`; the stored byte is `Memory.write_spec`. -/
theorem persistencePortReadsAndWrites : Obligations.PersistencePortReadsAndWrites := by
  unfold Obligations.PersistencePortReadsAndWrites
  intro s o v
  refine ⟨by simp [encode, mkWord_toNat], by simp [encode, mkWord_toNat], fun hinside => ?inside, fun hpast => ?past⟩
  case inside =>
    exact ⟨exec_saveRead_of_lt hinside, fun hwf => ⟨_, exec_saveWrite_of_lt hinside v, Memory.write_spec hwf _ v⟩⟩
  case past => exact ⟨exec_saveRead_of_le hpast, exec_saveWrite_of_le hpast v⟩

theorem exec_dirtyRead (s : State) : exec .dirtyRead s = .next (s.setOutput (.bit s.dirty) none) := rfl

theorem exec_dirtyClear (s : State) : exec .dirtyClear s = .next ((s.setDirty false).setOutput .none none) := rfl

/-- Settles O50: the read answers the flag (`exec_dirtyRead`), the clear only sets it to 0 (`exec_dirtyClear`). -/
theorem dirtyFlagIsReadAndCleared : Obligations.DirtyFlagIsReadAndCleared := by
  unfold Obligations.DirtyFlagIsReadAndCleared
  exact fun s => ⟨by decide, by decide, exec_dirtyRead s, exec_dirtyClear s⟩

end Sys2Proof.Machine

/-! # Proofs of the obligations cited from `46_variant_profiles`

## The rows of the opcode table select their words -/

namespace Sys2Proof

/-- A word selected by a row's mask and match reads, in the row's profile, as that row with the word's own address and
data byte (R88 to R90). -/
theorem reads_of_row_selects {r : Profile × Word × Word × (Addr → Byte → Instr)} (hr : r ∈ secondLevelRows) {w : Word}
    (hw : w &&& r.2.1 = r.2.2.1) : Reads r.1 w (r.2.2.2 (a16Field w) (d8Field w)) := by
  obtain ⟨hkind, hrsv, hwf⟩ := (row_selects_iff w r hr).mp hw
  obtain ⟨hword, hreadIn⟩ := row_word_readIn (a16Field w) (d8Field w) r hr
  refine ⟨?_, hwf, hreadIn⟩
  rw [hword, ← hkind, mkWord_fields w hrsv]

theorem rowsDecode_all (p : Profile) : rowsDecode p := by
  rintro r hr rfl w hw
  exact decode_of_reads (reads_of_row_selects hr hw)

/-- Settles O4: a selected word reads as its row (`reads_of_row_selects`), and every reading is decoded
(`rowsDecode_all`). -/
theorem opcodeTableMasksSelectTheirRows : Obligations.OpcodeTableMasksSelectTheirRows := by
  unfold Obligations.OpcodeTableMasksSelectTheirRows
  refine ⟨rowsDecode_all, fun r hr w hw => ?_⟩
  have hreads := reads_of_row_selects hr hw
  exact ⟨hreads.wf, hreads.readIn⟩

end Sys2Proof

/-! ## A register write outside PRG-RAM -/

namespace Sys2Proof.Machine

/-- A `cpu_write` below `CPU_WINDOW_LO` has no effect and emits `InvalidAddress` (R109, R283). -/
theorem exec_cpuWrite_of_outOfRange {s : State} {a : Addr} (ha : a.toNat < s.cfg.cpuWindowLo.toNat) (v : Byte) :
    exec (.cpuWrite a v) s = .next (s.setOutput .none (some (.invalidAddress a))) := by
  rcases busWrite_cases a v s with ⟨-, ebus⟩ | ⟨hlo, -⟩ | ⟨hlo, -⟩ | ⟨hlo, -⟩
  · exact ebus
  all_goals omega

/-- In a direct-write profile a register write performs the actions of the profile's decode (R241). -/
theorem registerWrite_of_direct {s : State} (h : s.cfg.profile.data.serial = false) (a : Addr) (v : Byte) :
    registerWrite a v s = applyActions (s.cfg.profile.data.writeDecode s.sel a v) s :=
  if_neg (Bool.eq_false_iff.mp h)

/-- Settles O28: the address's region decides between `exec_cpuWrite_of_outOfRange` and a register write, which in a
direct-write profile is the fold of `applyActions`. -/
theorem cpuWriteOutsidePrgRam : Obligations.CpuWriteOutsidePrgRam := by
  unfold Obligations.CpuWriteOutsidePrgRam
  intro s a v
  refine ⟨by simp [encode, mkWord_toNat], fun ha => exec_cpuWrite_of_outOfRange ha v, fun hlo ha hdirect => ?_⟩
  rw [exec_cpuWrite_register hlo ha, registerWrite_of_direct hdirect]
  rfl

end Sys2Proof.Machine

/-! ## A row's actions, and the bits of the written value that registers keep -/

namespace Sys2Proof.Machine

theorem applyActions_nil (s : State) : applyActions [] s = s := rfl

theorem applyActions_cons (act : Action Byte) (acts : List (Action Byte)) (s : State) :
    applyActions (act :: acts) s = applyActions acts (applyAction act s) := rfl

/-- One bit of a byte, as a one-bit register keeps it (R24). -/
theorem getLsbD_zero_byteField (v : Byte) (i : Nat) : (byteField v i 1).getLsbD 0 = v.getLsbD i := by
  simp [byteField]

/-- A field of a byte, as a register of `n` bits keeps it (R24). -/
theorem extractLsb'_byteField (v : Byte) (lo len : Nat) {n : Nat} (hn : n ≤ 8) :
    (byteField v lo len).extractLsb' 0 n = (v.extractLsb' lo len).setWidth n := by
  rw [byteField, ← BitVec.setWidth_eq_extractLsb' hn, BitVec.setWidth_setWidth_of_le _ hn]

theorem getLsbD_zero_bitByte (b : Bool) : (bitByte b).getLsbD 0 = b := by
  cases b <;> rfl

/-- A row whose effect ends in `t` once the output is written completes in `t`, in its own profile and in range. -/
theorem rowWrite_eq_next {p : Profile} {s t : State} {a : Addr} {effect : State → State}
    (hp : s.cfg.profile = p) (ha : s.cfg.cpuWindowLo.toNat ≤ a.toNat) (v : Byte)
    (ht : (effect s).setOutput .none none = t) : rowWrite p effect a v s = .next t :=
  ht ▸ rowWrite_of_inRange hp ha effect v

end Sys2Proof.Machine

/-! ## The rows of Profile S -/

namespace Sys2Proof.Machine

/-- The fifth write to CONTROL commits three fields of the five bits (R244). -/
theorem commitControl_eq (x : BitVec 5) (s : State) : commitControl x s = { s with
    mirrorField := x.extractLsb' 0 2, prgMode := x.extractLsb' 2 2, chrMode := x.getLsbD 4 } := by
  simp only [commitControl, applyActions_cons, applyActions_nil, applyAction, extractLsb'_byteField,
    getLsbD_zero_byteField, BitVec.extractLsb'_setWidth_of_le, BitVec.setWidth_eq, BitVec.getLsbD_setWidth,
    Nat.reduceLeDiff, Nat.reduceAdd, Nat.reduceLT, decide_true, Bool.true_and]
  rfl

/-- The fifth write to PRG commits the bank, and the enable from bit 4 inverted (R247). -/
theorem commitPrg_eq (x : BitVec 5) (s : State) : commitPrg x s = { s with
    prgBank := s.prgBank.set 0 ((x.extractLsb' 0 4).setWidth 8), ramEnable := !x.getLsbD 4 } := by
  simp only [commitPrg, applyActions_cons, applyActions_nil, applyAction, byteField,
    BitVec.extractLsb'_setWidth_of_le, getLsbD_zero_bitByte, Nat.reduceLeDiff, Nat.reduceAdd]
  rfl

/-- A shift row before the fifth write only fills the loader, whatever it would commit (R202). -/
theorem shiftRow_of_count_lt {s : State} {a : Addr} (hp : s.cfg.profile = .S)
    (ha : s.cfg.cpuWindowLo.toNat ≤ a.toNat) (hcount : s.count.toNat < 4) (v : Byte)
    (commit : BitVec 5 → State → State) :
    rowWrite .S (serialShift (v.getLsbD 0) commit) a v s =
      .next ((s.setSerial (pushBit s.shift s.count (v.getLsbD 0)) (s.count + 1)).setOutput .none none) := by
  have hne : s.count ≠ 4 := fun h => absurd hcount (by rw [h]; decide)
  rw [rowWrite_of_inRange hp ha, serialShift_of_count_ne hne]

/-- The fifth shift row commits the five bits and clears the loader (R202, R203). -/
theorem shiftRow_of_count_eq {s : State} {a : Addr} (hp : s.cfg.profile = .S)
    (ha : s.cfg.cpuWindowLo.toNat ≤ a.toNat) (hcount : s.count = 4) (v : Byte)
    (commit : BitVec 5 → State → State) :
    rowWrite .S (serialShift (v.getLsbD 0) commit) a v s =
      .next (((commit (pushBit s.shift s.count (v.getLsbD 0))
        (s.setSerial (pushBit s.shift s.count (v.getLsbD 0)) s.count)).setSerial 0 0).setOutput .none none) := by
  rw [rowWrite_of_inRange hp ha, serialShift_of_count_eq hcount]

/-- Settles O44: a shift row fills the loader below count 4 (`shiftRow_of_count_lt`) and at 4 performs its target's
commit (`shiftRow_of_count_eq`); `getLsbD_pushBit` says which bit was placed. -/
theorem serialRowsShiftAndCommit : Obligations.SerialRowsShiftAndCommit := by
  unfold Obligations.SerialRowsShiftAndCommit
  refine ⟨rowsDecode_all .S, fun s a v hp ha => ⟨?reset, fun _ => ⟨pushBit s.shift s.count (v.getLsbD 0),
    fun j hj => getLsbD_pushBit _ _ _ hj, fun hcount => ?shift, fun hcount => ?commit⟩⟩⟩
  case reset => exact rowWrite_eq_next (effect := fun s => (s.setSerial 0 0).setPrgMode 3) hp ha v rfl
  case shift =>
    intro i hi
    simp only [List.mem_cons, List.not_mem_nil, or_false] at hi
    rcases hi with rfl | rfl | rfl | rfl <;> exact shiftRow_of_count_lt hp ha hcount v _
  case commit =>
    refine ⟨(shiftRow_of_count_eq hp ha hcount v _).trans ?_, shiftRow_of_count_eq hp ha hcount v _,
      shiftRow_of_count_eq hp ha hcount v _, (shiftRow_of_count_eq hp ha hcount v _).trans ?_⟩
    · rw [commitControl_eq]
      rfl
    · rw [commitPrg_eq]
      rfl

end Sys2Proof.Machine

/-! ## The rows of Profile E -/

namespace Sys2Proof.Machine

/-- `sel` up to 5 selects the CHR bank of its number (R250). -/
theorem bankDataAction_of_le {sel : BitVec 3} {j : Fin 8} (hj : sel.toNat = j.val) (hle : j.val ≤ 5) (v : Byte) :
    bankDataAction sel v = .chrBank j v := by
  obtain rfl : sel.toFin = j := Fin.ext hj
  exact if_pos hle

/-- `sel` 6 selects `prg_bank[0]` (R250). -/
theorem bankDataAction_of_eq_six {sel : BitVec 3} (h : sel = 6) (v : Byte) : bankDataAction sel v = .prgBank 0 v := by
  rw [h]
  rfl

/-- `sel` 7 selects `prg_bank[1]` (R250). -/
theorem bankDataAction_of_eq_seven {sel : BitVec 3} (h : sel = 7) (v : Byte) : bankDataAction sel v = .prgBank 1 v := by
  rw [h]
  rfl

/-- Settles O46: each row performs its actions (`rowWrite_eq_next`), which keep of the byte the bits that
`extractLsb'_byteField` and `getLsbD_zero_byteField` name; E_BANK_DATA goes to the register that `sel` selects. -/
theorem profileERowsWriteTheirRegisters : Obligations.ProfileERowsWriteTheirRegisters := by
  unfold Obligations.ProfileERowsWriteTheirRegisters
  refine ⟨rowsDecode_all .E, fun s a v hp ha => ?_⟩
  have hrow {effect : State → State} {t : State} (ht : (effect s).setOutput .none none = t) :
      rowWrite .E effect a v s = .next t := rowWrite_eq_next hp ha v ht
  refine ⟨hrow ?select, fun j hj hle => hrow ?chr, fun hsel => hrow ?prg0, fun hsel => hrow ?prg1, hrow ?mirror,
    hrow ?protect, hrow rfl, hrow rfl, hrow rfl, hrow rfl⟩
  case select =>
    simp only [applyActions_cons, applyActions_nil, applyAction, extractLsb'_byteField, getLsbD_zero_byteField,
      BitVec.setWidth_eq, Nat.reduceLeDiff]
    rfl
  case chr =>
    rw [bankDataAction_of_le hj hle]
    rfl
  case prg0 =>
    rw [bankDataAction_of_eq_six hsel]
    rfl
  case prg1 =>
    rw [bankDataAction_of_eq_seven hsel]
    rfl
  case mirror =>
    simp only [applyActions_cons, applyActions_nil, applyAction, extractLsb'_byteField, Nat.reduceLeDiff]
    rfl
  case protect =>
    simp only [applyActions_cons, applyActions_nil, applyAction, getLsbD_zero_byteField]
    rfl

end Sys2Proof.Machine

/-! ## The rows of Profile C -/

namespace Sys2Proof.Machine

theorem chrLoIndex_eq {a : Addr} {j : Fin 8} (hj : j.val = a.toNat % 4) : chrLoIndex a = j := by
  refine Fin.ext ?_
  rw [chrLoIndex, BitVec.val_toFin, hj]
  simp only [BitVec.toNat_setWidth, BitVec.extractLsb'_toNat, Nat.shiftRight_zero, Nat.reducePow]
  omega

theorem chrHiIndex_eq {a : Addr} {j : Fin 8} (hj : j.val = 4 + a.toNat % 4) : chrHiIndex a = j := by
  refine Fin.ext ?_
  rw [chrHiIndex, BitVec.val_toFin, hj]
  simp only [BitVec.toNat_add, BitVec.reduceToNat, BitVec.toNat_setWidth, BitVec.extractLsb'_toNat,
    Nat.shiftRight_zero, Nat.reducePow]
  omega

/-- `C_IRQ_CONTROL` writes enable and mode; enabling loads the counter, disabling clears the level (R263). -/
theorem applyActions_irqControlActions (v : Byte) (s : State) : applyActions (irqControlActions v) s = { s with
    irqEnable := v.getLsbD 0, countMode := v.getLsbD 1
    irqCounter := if v.getLsbD 0 then s.irqLatch else s.irqCounter
    irqPending := if v.getLsbD 0 then s.irqPending else false } := by
  cases henable : v.getLsbD 0
  all_goals
    simp only [irqControlActions, henable, List.cons_append, List.nil_append, Bool.false_eq_true, if_true, if_false,
      applyActions_cons, applyActions_nil, applyAction, getLsbD_zero_byteField, writeIrqEnable_fields, Bool.and_false,
      Bool.and_true]
    rfl

/-- Settles O47: each row performs its actions (`rowWrite_eq_next`); the CHR rows go to the register of `a[1:0]`
(`chrLoIndex_eq`, `chrHiIndex_eq`), C_IRQ_CONTROL is `applyActions_irqControlActions`. -/
theorem profileCRowsWriteTheirRegisters : Obligations.ProfileCRowsWriteTheirRegisters := by
  unfold Obligations.ProfileCRowsWriteTheirRegisters
  refine ⟨rowsDecode_all .C, fun s a v hp ha => ?_⟩
  have hrow {effect : State → State} {t : State} (ht : (effect s).setOutput .none none = t) :
      rowWrite .C effect a v s = .next t := rowWrite_eq_next hp ha v ht
  refine ⟨hrow rfl, hrow ?mirror, fun j hj => hrow ?chrLo, fun j hj => hrow ?chrHi, hrow rfl, hrow ?control, hrow rfl,
    ?ignored⟩
  case mirror =>
    simp only [applyActions_cons, applyActions_nil, applyAction, extractLsb'_byteField, BitVec.setWidth_eq,
      Nat.reduceLeDiff]
    rfl
  case chrLo =>
    rw [chrLoIndex_eq hj]
    rfl
  case chrHi =>
    rw [chrHiIndex_eq hj]
    rfl
  case control =>
    rw [applyActions_irqControlActions]
    rfl
  case ignored =>
    intro i hi
    simp only [List.mem_cons, List.not_mem_nil, or_false] at hi
    rcases hi with rfl | rfl | rfl | rfl <;> exact hrow rfl

end Sys2Proof.Machine

/-! # Proofs of the obligations cited from `60_exceptions`

## Every transaction completes -/

namespace Sys2Proof.Machine

/-- A `cpu_write` completes in every state (R109). -/
theorem busWrite_completes (a : Addr) (v : Byte) (s : State) : ∃ t, busWrite a v s = .next t := by
  rcases busWrite_cases a v s with ⟨-, e⟩ | ⟨-, -, e⟩ | ⟨-, -, -, e⟩ | ⟨-, -, e⟩ <;> exact ⟨_, e⟩

theorem rowWrite_completes (p : Profile) (effect : State → State) (a : Addr) (v : Byte) (s : State) :
    ∃ t, rowWrite p effect a v s = .next t := by
  rcases rowWrite_cases p effect a v s with ⟨-, -, e⟩ | ⟨-, e⟩
  · exact ⟨_, e⟩
  · exact e ▸ busWrite_completes a v s

/-- A `cpu_read` decodes only from 0x8000, where a tiled layout has a window (R108, R127). -/
theorem execCpuRead_completes {s : State} (htiled : s.cfg.profile.data.tiled = true) (a : Addr) :
    ∃ t, execCpuRead a s = .next t := by
  rcases cpuRegion_cases s a with ⟨ha, -⟩ | ⟨-, -, e⟩ | ⟨hlo, hge, hle, -⟩ | ⟨hlo, ha, -⟩
  · exact ⟨_, execCpuRead_of_outOfRange ha⟩
  · exact ⟨_, by rw [execCpuRead, e]; rfl⟩
  · exact ⟨_, execCpuRead_of_prgRam hlo hge hle⟩
  · obtain ⟨w, hw⟩ := prgWindow_isSome htiled ha
    exact ⟨_, (execCpuRead_of_prgRom hlo ha).trans (readPrgRom_eq hw)⟩

/-- A `ppu_read` decodes only up to 0x1FFF, where a tiled layout has a window (R110, R128). -/
theorem execPpuRead_completes {s : State} (htiled : s.cfg.profile.data.tiled = true) (a : Addr) :
    ∃ t, execPpuRead a s = .next t := by
  rcases Nat.lt_or_ge 0x1FFF a.toNat with ha | ha
  · exact ⟨_, execPpuRead_of_outOfRange ha s⟩
  · obtain ⟨w, hw⟩ := chrWindow_isSome htiled ha
    exact ⟨_, execPpuRead_of_window ha hw⟩

/-- A `ppu_write`, likewise (R111, R128). -/
theorem execPpuWrite_completes {s : State} (htiled : s.cfg.profile.data.tiled = true) (a : Addr) (v : Byte) :
    ∃ t, execPpuWrite a v s = .next t := by
  rcases Nat.lt_or_ge 0x1FFF a.toNat with ha | ha
  · exact ⟨_, execPpuWrite_of_outOfRange ha v s⟩
  · obtain ⟨w, hw⟩ := chrWindow_isSome htiled ha
    exact ⟨_, execPpuWrite_of_window ha hw v⟩

/-- With a tiled profile every transaction completes: only a bank decode could stop (log entry 17). -/
theorem exec_completes {s : State} (htiled : s.cfg.profile.data.tiled = true) (i : Instr) :
    ∃ t, exec i s = .next t := by
  cases i
  case cpuRead a => exact execCpuRead_completes htiled a
  case cpuWrite a v => exact busWrite_completes a v s
  case ppuRead a => exact execPpuRead_completes htiled a
  case ppuWrite a v => exact execPpuWrite_completes htiled a v
  case reset | scanline | clock | irqState | irqClear | getMirror | saveRead | saveWrite | dirtyRead | dirtyClear =>
    exact ⟨_, rfl⟩
  case sReset a v => exact rowWrite_completes .S (fun s => (s.setSerial 0 0).setPrgMode 3) a v s
  all_goals exact rowWrite_completes _ _ _ _ s

/-- Settles O12: the invariant's configuration has a tiled profile. -/
theorem everyTransactionCompletes : Obligations.EveryTransactionCompletes := by
  unfold Obligations.EveryTransactionCompletes
  exact fun s i hs => exec_completes hs.cfg_wf.tiled i

/-! ## Runs over legal words -/

/-- A word is legal where the decoder gives a transaction (R86). -/
theorem legalWord_iff {p : Profile} {w : Word} : legalWord p w = true ↔ ∃ i, decode p w = .ok i := by
  unfold legalWord
  cases decode p w <;> simp [Except.toOption]

/-- A word taken off a legal stream leaves a legal stream. -/
theorem legalStream_of_cons {s t : State} {w : Word} {rest : List Word} (hs : s.stream = w :: rest)
    (hcfg : t.cfg = s.cfg) (hrest : t.stream = rest) (hlegal : legalStream s) : legalStream t := by
  intro x hx
  rw [hcfg]
  rw [hrest] at hx
  exact hlegal x (hs ▸ List.mem_cons_of_mem w hx)

/-- From a constructed instance a step over a legal stream is idle or performs a transaction, and completes (R280). -/
theorem step_completes {s : State} (hs : InstanceInv s) (hlegal : legalStream s) : ∃ t, step s = .next t := by
  cases hstream : s.stream with
  | nil => exact ⟨s, step_nil hstream⟩
  | cons w rest =>
    obtain ⟨i, hdecode⟩ := legalWord_iff.mp (hlegal w (hstream ▸ List.mem_cons_self))
    rw [step_of_decode hstream hdecode]
    exact exec_completes (s := s.setFetch rest (s.position + 1)) hs.cfg_wf.tiled i

/-- A step keeps the stream legal: it takes words off and does not change the profile (R41, R6). -/
theorem step_legalStream {s t : State} (h : step s = .next t) (hlegal : legalStream s) : legalStream t := by
  obtain ⟨hcfg, hidle, htake⟩ := noStepChangesTheConfiguration s t h
  cases hstream : s.stream with
  | nil => exact hidle hstream ▸ hlegal
  | cons w rest => exact legalStream_of_cons hstream hcfg (htake w rest hstream).1 hlegal

/-- A run whose first step does not stop goes on from there. -/
theorem run_succ {M : Host.Core} {s u : M.State} (h : M.step s = .next u) (k : Nat) : M.run (k + 1) s = M.run k u := by
  simp only [Host.Core.run, h]

/-- Where every state with a property steps to a state with the property, a run of any length from one ends in one. -/
theorem run_induct {M : Host.Core} {P : M.State → Prop} (hstep : ∀ s, P s → ∃ t, M.step s = .next t ∧ P t)
    (k : Nat) {s : M.State} (hs : P s) : ∃ t, M.run k s = .next t ∧ P t := by
  induction k generalizing s with
  | zero => exact ⟨s, rfl, hs⟩
  | succ k ih =>
    obtain ⟨u, hu, hPu⟩ := hstep s hs
    rw [run_succ hu]
    exact ih hPu

/-- Settles O13: a step completes and keeps both properties, so a run does (`run_induct`). -/
theorem legalRunsNeverStop : Obligations.LegalRunsNeverStop := by
  unfold Obligations.LegalRunsNeverStop
  intro s k hs hlegal
  refine run_induct (M := core) (P := fun s => InstanceInv s ∧ legalStream s) ?_ k ⟨hs, hlegal⟩
  intro u ⟨hu, hulegal⟩
  obtain ⟨t, ht⟩ := step_completes hu hulegal
  exact ⟨t, ht, everyStepKeepsTheInvariant u t hu ht, step_legalStream ht hulegal⟩

end Sys2Proof.Machine

/-! ## The diagnostic events -/

namespace Sys2Proof.Machine

/-- Transaction `i` is a CPU access of `a` below `CPU_WINDOW_LO`, or a PPU access of `a` above 0x1FFF (R283). -/
def OutOfRangeAccess (i : Instr) (s : State) (a : Addr) : Prop :=
  (a.toNat < s.cfg.cpuWindowLo.toNat ∧ (i = .cpuRead a ∨ ∃ v, encode i = encode (.cpuWrite a v))) ∨
  (0x1FFF < a.toNat ∧ (i = .ppuRead a ∨ ∃ v, i = .ppuWrite a v))

/-- Every way in which transaction `i` leaves its diagnostic event and the diagnostic bit: no event, the event of an
out-of-range access (R283), or what a bank decode notes (R130). -/
inductive Diagnosed (i : Instr) (s t : State) : Prop
  | silent (hdiag : t.diag = none) (hbit : t.diagSizeMismatch = s.diagSizeMismatch)
  | outOfRange {a : Addr} (ha : OutOfRangeAccess i s a) (hdiag : t.diag = some (.invalidAddress a))
      (hbit : t.diagSizeMismatch = s.diagSizeMismatch)
  | decoded {store : Store} {wraps : Bool} (hdiag : t.diag = mismatchDiag s store wraps)
      (hbit : t.diagSizeMismatch = (s.diagSizeMismatch || wraps))

/-- A transaction that answers without an event, from a state with the diagnostic bit as it was. -/
theorem answer_silent {i : Instr} {s u t : State} {r : Response} (h : answer u r none = .next t)
    (hu : u.diagSizeMismatch = s.diagSizeMismatch) : Diagnosed i s t := by
  cases h
  exact .silent rfl hu

theorem ramWrite_diagSizeMismatch (a : Addr) (v : Byte) (s : State) :
    (ramWrite a v s).diagSizeMismatch = s.diagSizeMismatch := by
  rcases ramWrite_cases a v s with ⟨-, e⟩ | ⟨-, e⟩ <;> rw [e]

/-- A `cpu_write`, or a second-level row that stands for it (R109). -/
theorem busWrite_diagnosed {i : Instr} {a : Addr} {v : Byte} {s t : State} (hi : encode i = encode (.cpuWrite a v))
    (h : busWrite a v s = .next t) : Diagnosed i s t := by
  rcases busWrite_cases a v s with ⟨ha, e⟩ | ⟨-, -, e⟩ | ⟨-, -, -, e⟩ | ⟨-, -, e⟩ <;> have h := e.symm.trans h
  · cases h
    exact .outOfRange (.inl ⟨ha, .inr ⟨v, hi⟩⟩) rfl rfl
  · exact answer_silent h rfl
  · exact answer_silent h (ramWrite_diagSizeMismatch a v s)
  · exact answer_silent h (registerWrite_writes a v s).keeps.diagSizeMismatch

theorem rowWrite_diagnosed {i : Instr} {p : Profile} {effect : State → State} {a : Addr} {v : Byte} {s t : State}
    (hi : encode i = encode (.cpuWrite a v)) (h : rowWrite p effect a v s = .next t)
    (heffect : WritesRegisters s (effect s)) : Diagnosed i s t := by
  rcases rowWrite_cases p effect a v s with ⟨-, -, e⟩ | ⟨-, e⟩
  · exact answer_silent (e.symm.trans h) heffect.keeps.diagSizeMismatch
  · exact busWrite_diagnosed hi (e.symm.trans h)

/-- A `cpu_read` decodes from 0x8000 only (R108, R130). -/
theorem execCpuRead_diagnosed {a : Addr} {s t : State} (h : execCpuRead a s = .next t) :
    Diagnosed (.cpuRead a) s t := by
  rcases cpuRegion_cases s a with ⟨ha, -⟩ | ⟨-, -, e⟩ | ⟨hlo, hge, hle, -⟩ | ⟨hlo, ha, -⟩
  · rw [execCpuRead_of_outOfRange ha] at h
    cases h
    exact .outOfRange (.inl ⟨ha, .inl rfl⟩) rfl rfl
  · rw [execCpuRead, e] at h
    exact answer_silent h rfl
  · rw [execCpuRead_of_prgRam hlo hge hle] at h
    exact answer_silent h rfl
  · rw [execCpuRead_of_prgRom hlo ha] at h
    cases hw : prgWindow s a with
    | none => simp [readPrgRom, hw] at h
    | some w =>
      rw [readPrgRom_eq hw] at h
      cases h
      exact .decoded rfl rfl

/-- A `ppu_read` decodes up to 0x1FFF, through the window of the state before the hook (R110, R130). -/
theorem execPpuRead_diagnosed {a : Addr} {s t : State} (h : execPpuRead a s = .next t) :
    Diagnosed (.ppuRead a) s t := by
  rcases Nat.lt_or_ge 0x1FFF a.toNat with ha | ha
  · rw [execPpuRead_of_outOfRange ha] at h
    cases h
    exact .outOfRange (.inr ⟨ha, .inl rfl⟩) rfl rfl
  · cases hw : chrWindow s a with
    | none => simp [execPpuRead_of_inRange ha, readChr, chrWindow_edgeHook, hw] at h
    | some w =>
      rw [execPpuRead_of_window ha hw] at h
      cases h
      exact .decoded rfl rfl

/-- A `ppu_write`, likewise (R111, R130, R133). -/
theorem execPpuWrite_diagnosed {a : Addr} {v : Byte} {s t : State} (h : execPpuWrite a v s = .next t) :
    Diagnosed (.ppuWrite a v) s t := by
  rcases Nat.lt_or_ge 0x1FFF a.toNat with ha | ha
  · rw [execPpuWrite_of_outOfRange ha] at h
    cases h
    exact .outOfRange (.inr ⟨ha, .inr ⟨v, rfl⟩⟩) rfl rfl
  · cases hw : chrWindow s a with
    | none => simp [execPpuWrite_of_inRange ha, writeChr, chrWindow_edgeHook, hw] at h
    | some w =>
      rw [execPpuWrite_of_window ha hw] at h
      cases h
      exact .decoded rfl rfl

theorem execScanline_diagnosed {s t : State} (h : execScanline s = .next t) : Diagnosed .scanline s t := by
  refine answer_silent h ?_
  split
  · exact (tick_clocks s).keeps.diagSizeMismatch
  · rfl

theorem execClock_diagnosed {n : Addr} {s t : State} (h : execClock n s = .next t) : Diagnosed (.clock n) s t := by
  refine answer_silent h ?_
  split
  · exact (ticks_clocks n.toNat s).keeps.diagSizeMismatch
  · rfl

theorem execSaveWrite_diagnosed {o : Addr} {v : Byte} {s t : State} (h : execSaveWrite o v s = .next t) :
    Diagnosed (.saveWrite o v) s t := by
  refine answer_silent h ?_
  split <;> rfl

theorem execSReset_diagnosed {a : Addr} {v : Byte} {s t : State} (h : execSReset a v s = .next t) :
    Diagnosed (.sReset a v) s t :=
  rowWrite_diagnosed rfl h ((setSerial_writes s 0 0 fun _ => by decide).trans (setPrgMode_writes _ 3))

/-- Every transaction leaves its event and the diagnostic bit in one of these ways. -/
theorem exec_diagnosed {i : Instr} {s t : State} (h : exec i s = .next t) : Diagnosed i s t := by
  cases i
  case cpuRead => exact execCpuRead_diagnosed h
  case cpuWrite => exact busWrite_diagnosed rfl h
  case ppuRead => exact execPpuRead_diagnosed h
  case ppuWrite => exact execPpuWrite_diagnosed h
  case scanline => exact execScanline_diagnosed h
  case clock => exact execClock_diagnosed h
  case saveWrite => exact execSaveWrite_diagnosed h
  case reset | irqState | irqClear | getMirror | saveRead | dirtyRead | dirtyClear => exact answer_silent h rfl
  case sReset => exact execSReset_diagnosed h
  case sShiftControl | sShiftChr0 | sShiftChr1 | sShiftPrg =>
    exact rowWrite_diagnosed rfl h (serialShift_writes (fun _ _ => applyActions_writes _ _) _ s)
  all_goals exact rowWrite_diagnosed rfl h (applyActions_writes _ s)

/-- A decode emits `SizeMismatch` exactly where it wraps and the bit is still 0 (R282). -/
theorem mismatchDiag_emits_iff (s : State) (store : Store) (wraps : Bool) :
    (∃ reached, mismatchDiag s store wraps = some (.sizeMismatch reached)) ↔
      wraps = true ∧ s.diagSizeMismatch = false := by
  rw [mismatchDiag_eq]
  split <;> simp [*]

theorem mismatchDiag_ne_invalidAddress (s : State) (store : Store) (wraps : Bool) (a : Addr) :
    mismatchDiag s store wraps ≠ some (.invalidAddress a) := by
  rw [mismatchDiag_eq]
  split <;> nofun

/-- Settles O54: only a decode emits `SizeMismatch` or writes the bit, and it does the one exactly where it changes the
other (`mismatchDiag_emits_iff`). -/
theorem sizeMismatchIsLoggedOnce : Obligations.SizeMismatchIsLoggedOnce := by
  unfold Obligations.SizeMismatchIsLoggedOnce
  intro s t i h
  cases exec_diagnosed h with
  | silent hdiag hbit => simp [hdiag, hbit]
  | outOfRange _ hdiag hbit => simp [hdiag, hbit]
  | decoded hdiag hbit =>
    rw [hdiag, hbit, mismatchDiag_emits_iff]
    cases s.diagSizeMismatch <;> simp

/-- An out-of-range access emits `InvalidAddress` with its address; a second-level row does as the `cpu_write` it is. -/
theorem exec_diag_of_outOfRangeAccess {i : Instr} {s t : State} {a : Addr} (hwf : i.wf = true) (h : exec i s = .next t)
    (ha : OutOfRangeAccess i s a) : t.diag = some (.invalidAddress a) := by
  rcases ha with ⟨ha, rfl | ⟨v, hi⟩⟩ | ⟨ha, rfl | ⟨v, rfl⟩⟩
  · cases (execCpuRead_of_outOfRange ha).symm.trans h
    rfl
  · rw [secondLevelRowIsItsCpuWrite i a v s hwf hi, exec_cpuWrite_of_outOfRange ha v] at h
    cases h
    rfl
  · cases (execPpuRead_of_outOfRange ha s).symm.trans h
    rfl
  · cases (execPpuWrite_of_outOfRange ha v s).symm.trans h
    rfl

/-- Settles O55: every out-of-range access emits the event (`exec_diag_of_outOfRangeAccess`), and nothing else does
(`exec_diagnosed`). -/
theorem invalidAddressIsEmittedExactlyOutOfRange : Obligations.InvalidAddressIsEmittedExactlyOutOfRange := by
  unfold Obligations.InvalidAddressIsEmittedExactlyOutOfRange
  intro s t i a hwf h
  refine ⟨fun hemits => ?_, exec_diag_of_outOfRangeAccess hwf h⟩
  cases exec_diagnosed h with
  | silent hdiag => simp [hdiag] at hemits
  | outOfRange ha hdiag =>
    obtain rfl : _ = a := by simpa [hdiag] using hemits
    exact ha
  | decoded hdiag => exact absurd (hdiag.symm.trans hemits) (mismatchDiag_ne_invalidAddress s _ _ a)

end Sys2Proof.Machine

/-! # Proofs of the obligations cited from `70_reset_and_hazards`

## The registers after a reset -/

namespace Sys2Proof.Machine

theorem exec_reset (s : State) : exec .reset s = .next ((resetRegisters s).setOutput .none none) := rfl

theorem resetMirrorField_of_value {cfg : Config} {f : BitVec 2}
    (h : cfg.profile.data.resetValues.mirrorField = .value f) : resetMirrorField cfg = f := by
  rw [resetMirrorField, h]

theorem resetMirrorField_of_encHeader {cfg : Config} (h : cfg.profile.data.resetValues.mirrorField = .encHeader) :
    resetMirrorField cfg = cfg.profile.data.enc cfg.headerMirror := by
  rw [resetMirrorField, h]

/-- Settles O33: `exec_reset` gives the fields, the mirror field by its two clauses; the values depend on the
configuration only, so a second reset writes the same. -/
theorem resetRestoresTheRegisters : Obligations.ResetRestoresTheRegisters := by
  unfold Obligations.ResetRestoresTheRegisters
  intro s
  exact ⟨rfl, _, exec_reset s, rfl, fun _ => resetMirrorField_of_value, resetMirrorField_of_encHeader, rfl⟩

/-! ## The reference profiles after a reset -/

/-- `RESET_VALUES` of the reference profiles where they are the same (R301, D12). -/
theorem reference_resetValues {p : Profile} (hp : p ∈ [Profile.S, Profile.E, Profile.C]) : p.data.resetValues =
    { prgBank := Vector.replicate 4 0, chrBank := Vector.replicate 8 0, prgMode := p.data.resetValues.prgMode
      chrMode := false, mirrorField := .encHeader, ramEnable := true, ramProtect := false } := by
  simp only [List.mem_cons, List.not_mem_nil, or_false] at hp
  rcases hp with rfl | rfl | rfl <;> rfl

theorem profileS_enc (m : Mirroring) : profileS.enc m = encS m := by cases m <;> rfl

theorem profileE_enc (m : Mirroring) : profileE.enc m = encE m := by cases m <;> rfl

theorem profileC_enc (m : Mirroring) : profileC.enc m = encC m := by cases m <;> rfl

/-- The registers of a reference profile after a reset (R301). -/
theorem resetRegisters_of_reference {s : State} (hp : s.cfg.profile ∈ [Profile.S, Profile.E, Profile.C]) :
    resetRegisters s = { resetRegisters s with
      prgBank := Vector.replicate 4 0, chrBank := Vector.replicate 8 0, chrMode := false
      mirrorField := s.cfg.profile.data.enc s.cfg.headerMirror, ramEnable := true, ramProtect := false } := by
  have hmirror := resetMirrorField_of_encHeader (cfg := s.cfg) (by rw [reference_resetValues hp])
  rw [← hmirror]
  simp only [resetRegisters]
  rw [reference_resetValues hp]

/-- Settles O34: the common values are `resetRegisters_of_reference`, the mirror field is each profile's `enc`. -/
theorem referenceResetValues : Obligations.ReferenceResetValues := by
  unfold Obligations.ReferenceResetValues
  intro s t hp h
  cases (exec_reset s).symm.trans h
  have hmode : (resetRegisters s).prgMode = s.cfg.profile.data.resetValues.prgMode := rfl
  rw [resetRegisters_of_reference hp]
  refine ⟨by simp, by simp, rfl, rfl, rfl, fun hS => ?_, fun hE => ?_, fun hC => ?_⟩
  · exact ⟨hmode.trans (by rw [hS]; rfl), by rw [← profileS_enc]; simp [hS, Profile.data]⟩
  · exact ⟨hmode.trans (by rw [hE]; rfl), by rw [← profileE_enc]; simp [hE, Profile.data]⟩
  · exact ⟨hmode.trans (by rw [hC]; rfl), by rw [← profileC_enc]; simp [hC, Profile.data]⟩

end Sys2Proof.Machine

/-! ## The default mapping -/

namespace Sys2Proof

/-- A window fixed on the last bank shows the last whole window of the store (R122, R124). -/
theorem Window.offset_of_fixedLast {n : Nat} {w : Window n} (hw : w.policy = .fixedLast) (regs : Vector Byte n)
    (size a : Nat) :
    w.offset regs size a = ((bankCount size w.size - 1) * w.size + (a - w.base)) % size := by
  have hraw : w.raw regs size = bankCount size w.size - 1 := by rw [Window.raw, hw]
  have hlast : bankCount size w.size - 1 < bankCount size w.size := Nat.sub_lt (bankCount_pos _ _) Nat.one_pos
  rw [Window.offset, Window.unwrapped, Window.bank, hraw, Nat.mod_eq_of_lt hlast]

/-- With every bank register 0 a window that is not fixed on the last bank shows bank 0 (R122, R123). -/
theorem Window.bank_of_registers_zero {n : Nat} {w : Window n} (hw : w.policy ≠ .fixedLast) (size : Nat) :
    w.bank (Vector.replicate n 0) size = 0 := by
  have hraw : w.raw (Vector.replicate n 0) size = 0 := by
    unfold Window.raw
    split
    · rfl
    · next h => exact absurd h hw
    · simp
  rw [Window.bank, hraw, Nat.zero_mod]

/-- The window is aligned to its size and not fixed on the last bank. -/
abbrev Window.ofFirstBank {n : Nat} (w : Window n) : Prop := w.policy ≠ .fixedLast ∧ w.size ∣ w.base

/-- With every bank register 0 the offset in such a window is the address's place in the window, wrapped in the store
(R124). -/
theorem Window.offset_of_registers_zero {n : Nat} {w : Window n} (hw : w.ofFirstBank) {a : Nat}
    (ha : w.base ≤ a ∧ a < w.base + w.size) (size : Nat) :
    w.offset (Vector.replicate n 0) size a = a % w.size % size := by
  obtain ⟨k, hk⟩ := hw.2
  have hlocal : a % w.size = a - w.base := by
    rw [← Nat.mod_eq_of_lt (show a - w.base < w.size by omega), hk, Nat.sub_mul_mod (hk ▸ ha.1)]
  rw [Window.offset, Window.unwrapped, Window.bank_of_registers_zero hw.1, Nat.zero_mul, Nat.zero_add, hlocal]

/-- The PRG layout of a reference profile in its mode after a reset: the upper half is one window on the last bank, and
below it the windows have one size. -/
theorem prgLayout_after_reset : ∀ p ∈ [Profile.S, Profile.E, Profile.C],
    ∀ w ∈ p.data.prgLayout[p.data.resetValues.prgMode.toFin],
      (w.base = 0xC000 ∧ w.size = 0x4000 ∧ w.policy = .fixedLast) ∨
      (w.base + w.size ≤ 0xC000 ∧ w.size = (if p = .E then 0x2000 else 0x4000) ∧ w.ofFirstBank) := by decide

theorem chrLayout_after_reset : ∀ p ∈ [Profile.S, Profile.E, Profile.C], ∀ w ∈ p.data.chrLayout[0], w.ofFirstBank := by
  decide

/-- The sizes of the CHR windows in mode 0; in Profile E they differ between the halves of the space (R248). -/
theorem chrLayout_sizes_after_reset :
    (∀ w ∈ profileS.chrLayout[0], w.size = 0x2000) ∧
    (∀ w ∈ profileE.chrLayout[0], w.inOneHalf ∧ w.size = if w.base < 0x1000 then 0x800 else 0x400) ∧
    (∀ w ∈ profileC.chrLayout[0], w.size = 0x400) := by decide

theorem reference_tiled {p : Profile} (hp : p ∈ [Profile.S, Profile.E, Profile.C]) : p.data.tiled = true := by
  simp only [List.mem_cons, List.not_mem_nil, or_false] at hp
  rcases hp with rfl | rfl | rfl
  · exact tiled_S
  · exact tiled_E
  · exact tiled_C

namespace Machine

/-- After a reset in a reference profile, a register-range address is decoded by a window of the layout of the reset
mode, every PRG bank register being 0. -/
theorem prgOffset_after_reset {s t : State} (hp : s.cfg.profile ∈ [Profile.S, Profile.E, Profile.C])
    (h : exec .reset s = .next t) {a : Addr} (ha : 0x8000 ≤ a.toNat) :
    ∃ w ∈ s.cfg.profile.data.prgLayout[s.cfg.profile.data.resetValues.prgMode.toFin],
      (w.base ≤ a.toNat ∧ a.toNat < w.base + w.size) ∧
      prgOffset t a = some (w.offset (Vector.replicate 4 0) s.cfg.prgSize a.toNat) := by
  cases (exec_reset s).symm.trans h
  obtain ⟨w, hw⟩ := prgWindow_isSome (s := (resetRegisters s).setOutput .none none) (reference_tiled hp) ha
  obtain ⟨hmem, hanswers⟩ := findWindow_some hw
  refine ⟨w, hmem, hanswers, (prgOffset_of_window hw).trans ?_⟩
  rw [resetRegisters_of_reference hp]
  rfl

/-- After a reset in a reference profile, a pattern-table address is decoded in CHR mode 0 and its window shows bank 0. -/
theorem chrOffset_after_reset {s t : State} (hp : s.cfg.profile ∈ [Profile.S, Profile.E, Profile.C])
    (h : exec .reset s = .next t) {a : Addr} (ha : a.toNat ≤ 0x1FFF) :
    ∃ w ∈ s.cfg.profile.data.chrLayout[0], (w.base ≤ a.toNat ∧ a.toNat < w.base + w.size) ∧
      chrOffset t a = some (a.toNat % w.size % s.cfg.chrSize) := by
  cases (exec_reset s).symm.trans h
  obtain ⟨w, hw⟩ := chrWindow_isSome (s := (resetRegisters s).setOutput .none none) (reference_tiled hp) ha
  have hmode : ((resetRegisters s).setOutput .none none).chrMode = false := by
    rw [resetRegisters_of_reference hp]; rfl
  obtain ⟨hmem, hanswers⟩ := findWindow_some hw
  rw [if_neg (Bool.eq_false_iff.mp hmode)] at hmem
  refine ⟨w, hmem, hanswers, (chrOffset_of_window hw).trans ?_⟩
  rw [← Window.offset_of_registers_zero (chrLayout_after_reset _ hp w hmem) hanswers, resetRegisters_of_reference hp]
  rfl

/-- After a reset 0xC000..0xFFFF is the last 16 KiB bank (R301). -/
theorem prgOffset_upper_after_reset {s t : State} (hp : s.cfg.profile ∈ [Profile.S, Profile.E, Profile.C])
    (h : exec .reset s = .next t) {a : Addr} (ha : 0xC000 ≤ a.toNat) : prgOffset t a =
      some (((max 1 (s.cfg.prgSize / 0x4000) - 1) * 0x4000 + (a.toNat - 0xC000)) % s.cfg.prgSize) := by
  obtain ⟨w, hmem, hanswers, e⟩ := prgOffset_after_reset hp h (a := a) (by omega)
  obtain ⟨hbase, hsize, hlast⟩ | ⟨hend, -, -⟩ := prgLayout_after_reset _ hp w hmem
  · rw [e, Window.offset_of_fixedLast hlast, hbase, hsize, bankCount]
  · omega

/-- After a reset 0x8000..0xBFFF shows bank 0 in each window below the last (R301). -/
theorem prgOffset_lower_after_reset {s t : State} (hp : s.cfg.profile ∈ [Profile.S, Profile.E, Profile.C])
    (h : exec .reset s = .next t) {a : Addr} (h1 : 0x8000 ≤ a.toNat) (h2 : a.toNat ≤ 0xBFFF) :
    prgOffset t a = some (a.toNat % (if s.cfg.profile = .E then 0x2000 else 0x4000) % s.cfg.prgSize) := by
  obtain ⟨w, hmem, hanswers, e⟩ := prgOffset_after_reset hp h h1
  obtain ⟨hbase, -, -⟩ | ⟨-, hsize, hfirst⟩ := prgLayout_after_reset _ hp w hmem
  · omega
  · rw [e, Window.offset_of_registers_zero hfirst hanswers, hsize]

/-- Settles O23: the PRG clauses are `prgOffset_upper_after_reset` and `prgOffset_lower_after_reset`; the CHR
clauses are `chrOffset_after_reset` with each profile's window sizes. -/
theorem resetRestoresTheDefaultMapping : Obligations.ResetRestoresTheDefaultMapping := by
  unfold Obligations.ResetRestoresTheDefaultMapping
  intro s t h
  obtain ⟨hsizeS, hsizeE, hsizeC⟩ := chrLayout_sizes_after_reset
  refine ⟨fun hp a ha => prgOffset_upper_after_reset hp h ha, fun hSC a h1 h2 => ?prgSC, fun hE a h1 h2 => ?prgE,
    fun hS a ha => ?chrS, fun hE a ha => ?chrE, fun hC a ha => ?chrC⟩
  case prgSC =>
    have hnotE : s.cfg.profile ≠ .E := fun e => by simp [e] at hSC
    have hp : [Profile.S, Profile.C] ⊆ [Profile.S, Profile.E, Profile.C] := by simp
    have hlocal : a.toNat % 0x4000 = a.toNat - 0x8000 := by omega
    rw [prgOffset_lower_after_reset (hp hSC) h h1 h2, if_neg hnotE, hlocal]
  case prgE => rw [prgOffset_lower_after_reset (by simp [hE]) h h1 h2, if_pos hE]
  case chrS =>
    obtain ⟨w, hmem, hanswers, e⟩ := chrOffset_after_reset (by simp [hS]) h ha
    rw [hS] at hmem
    rw [e, hsizeS w hmem, Nat.mod_eq_of_lt (a := a.toNat) (by omega)]
  case chrE =>
    obtain ⟨w, hmem, hanswers, e⟩ := chrOffset_after_reset (by simp [hE]) h ha
    rw [hE] at hmem
    obtain ⟨hhalf, hsize⟩ := hsizeE w hmem
    have hlow : w.base < 0x1000 ↔ a.toNat ≤ 0x0FFF := by omega
    simp only [e, hsize, hlow]
  case chrC =>
    obtain ⟨w, hmem, hanswers, e⟩ := chrOffset_after_reset (by simp [hC]) h ha
    rw [hC] at hmem
    rw [e, hsizeC w hmem]

end Machine
end Sys2Proof

/-! # Proofs of the obligations cited from `95_test_vectors` -/

namespace Sys2Proof

/-- Settles O6: each word is the encoding of its transaction, which its profile reads, so O1 decodes it. -/
theorem writtenOutWordsDecode : Obligations.WrittenOutWordsDecode := by
  unfold Obligations.WrittenOutWordsDecode
  have hdecode := encodeThenDecodeGivesTheTransaction
  exact ⟨hdecode .S (.sReset 0xE123 0xFF) rfl rfl, hdecode .S (.sShiftPrg 0xE000 0x01) rfl rfl,
    hdecode .E (.eRamProtect 0xBFFF 0xC0) rfl rfl, hdecode .C (.cIrqAck 0xF7FE 0x10) rfl rfl,
    hdecode .C (.cpuWrite 0x4020 0x12) rfl rfl, hdecode .E (.ppuWrite 0x0400 0x5A) rfl rfl,
    hdecode .S (.clock 0x1234) rfl rfl, hdecode .S (.saveRead 0x0001) rfl rfl⟩

end Sys2Proof
